-- ==== Sys2Proof/Word.lean ====
section
/-! DEFINITION. The word types of the HX-62 and their plainest arithmetic. -/

namespace Sys2Proof

/-- One byte of a frame (11 R202). -/
abbrev Byte := BitVec 8

/-- A sixteen-bit word: the condition word, the masks, a revision (R195, R197, R28). -/
abbrev Word16 := BitVec 16

/-- An 11-bit bus identifier (R190). -/
abbrev BusId := BitVec 11

end Sys2Proof
end

