-- ==== Sys2Proof/Config.lean ====
section
/-! DEFINITION. What the spec leaves open, as constants without a body: nothing can evaluate them and a
statement holds whatever they are. Each is applied to a number that State counts, so that every use is fresh. -/

namespace Sys2Proof.Config

/-- Where a waiting valve command frame and the head of the send list carry the same identifier, whether the
valve command frame goes first. R194 orders different identifiers only (log 14). -/
opaque equalIdValveFirst : Nat → Bool

/-- Where a sample that fails the minimum and the feed's passing to SETTLE fall in one count, whether the sample is taken first
(R94; log 31). -/
opaque sampleBeforeStop : Nat → Bool

/-- Where that sample is taken first, whether its hold reaches the feed before the feed has reached SETTLE (R94, R120; log 31). -/
opaque holdBeforeStop : Nat → Bool

/-- Whether the non-volatile memory holds what a store wrote, for a store that the idle block sees through to the
end of its 80 ms (R185, R186; log 15). -/
opaque storeHolds : Nat → Bool

end Sys2Proof.Config
end

