-- ==== Sys2Proof/Syntax.lean ====
section
/-! DEFINITION. The commands of the HX-62: one constructor per row of spec/opcode_table.json. -/

namespace Sys2Proof

/-- One frame as it arrives on the head bus: identifier, whether it is a remote frame, data field (10 R190). -/
structure BusFrame where
  id : BusId
  remote : Bool
  data : List Byte
  deriving DecidableEq, Repr

/-- The three arm lines (04 R77). -/
inductive Line
  | ka
  | kb
  | rl
  deriving DecidableEq, Repr

/-- The commands. A row that takes a queued request has no operand: the request's bytes are those of the frame at
the head of the request queue (R191, log 6). -/
inductive Instr
  /-- POWER_ON (R188): power is applied, with the number that the two address straps read. -/
  | powerOn (straps : BitVec 2)
  /-- REQUEST_FRAME (R191). -/
  | requestFrame (frame : BusFrame)
  /-- BAD_REQUEST (R192). -/
  | badRequest
  /-- STATUS (R198). -/
  | status
  /-- READ_CONDITIONS (R196). -/
  | readConditions
  /-- SET_MASKS (R197). -/
  | setMasks
  /-- SET_PROFILE (R162). -/
  | setProfile
  /-- SET_FEED (R96). -/
  | setFeed
  /-- KNIFE_OVERRIDE (R151). -/
  | knifeOverride
  /-- TAKEOVER (R169). -/
  | takeover
  /-- CUT_NOW (R113). -/
  | cutNow
  /-- OPEN_STEM (R4). -/
  | openStem
  /-- ATTACH_STEM (R7). -/
  | attachStem
  /-- FINISH_STEM (R9). -/
  | finishStem
  /-- RETIRE_STEM (R10). -/
  | retireStem
  /-- READ_STEM (R11). -/
  | readStem
  /-- READ_ENTRIES (R36). -/
  | readEntries
  /-- APPEND_ENTRY (R31). -/
  | appendEntry
  /-- INSERT_ENTRY (R32). -/
  | insertEntry
  /-- CHANGE_ENTRY (R33). -/
  | changeEntry
  /-- CANCEL_ENTRY (R34). -/
  | cancelEntry
  /-- READ_SPECIES (R175). -/
  | readSpecies
  /-- WRITE_SPECIES (R176). -/
  | writeSpecies
  /-- CLEAR_SPECIES (R178). -/
  | clearSpecies
  /-- CALIBRATE (R179). -/
  | calibrate
  /-- READ_SETTING (R183). -/
  | readSetting
  /-- WRITE_SETTING (R184). -/
  | writeSetting
  /-- STORE (R185). -/
  | store
  /-- STORE_COMPLETION (R186): `held` says whether the memory holds the contents written, as read back. -/
  | storeCompletion (held : Bool)
  /-- RESET (R187). -/
  | reset
  /-- STARTUP_DEADLINE (R80). -/
  | startupDeadline
  /-- FRAME_TRANSMITTED (R194). -/
  | frameTransmitted
  /-- TRANSMIT_ERROR (R201). -/
  | transmitError
  /-- BUS_OFF_RECOVERY (R201). -/
  | busOffRecovery
  /-- VALVE_REFRESH_EXPIRY (R200). -/
  | valveRefreshExpiry
  /-- STICK_FRAME (R165). -/
  | stickFrame (frame : BusFrame)
  /-- TAKEOVER_RELEASE_EXPIRY (R167). -/
  | takeoverReleaseExpiry
  /-- ADVANCE_EXPECTATION_EXPIRY (R140). -/
  | advanceExpectationExpiry
  /-- WHEEL_COUNT (R53): one quadrature edge, forward or reverse. -/
  | wheelCount (forward : Bool)
  /-- ROLLER_COUNT (R53): one quadrature edge, forward or reverse. -/
  | rollerCount (forward : Bool)
  /-- WHEEL_CONTACT_SWITCH (R55): the switch's new level. -/
  | wheelContactSwitch (closed : Bool)
  /-- END_SENSOR_CHANGE (R73): the sensor's new raw level. -/
  | endSensorChange (covered : Bool)
  /-- GRIP_SAMPLE_EXPIRY (R82). -/
  | gripSampleExpiry
  /-- ARM_LINE_READING (R78): the line's new converted reading. -/
  | armLineReading (line : Line) (reading : BitVec 12)
  /-- LINE_OUT_OF_WINDOW_EXPIRY (R78). -/
  | lineOutOfWindowExpiry (line : Line)
  /-- LINE_IN_WINDOW_EXPIRY (R78). -/
  | lineInWindowExpiry (line : Line)
  /-- DROP_TIMER_EXPIRY (R90). -/
  | dropTimerExpiry
  /-- SETTLE_TIMER_EXPIRY (R101). -/
  | settleTimerExpiry
  /-- STALL_TIMER_EXPIRY (R109). -/
  | stallTimerExpiry
  /-- BAR_LEAVES_HOME (R135). -/
  | barLeavesHome
  /-- END_OF_STROKE (R127). -/
  | endOfStroke
  /-- BAR_HOME (R128). -/
  | barHome
  /-- CUT_TIMER_EXPIRY (R129). -/
  | cutTimerExpiry
  /-- RETURN_TIMER_EXPIRY (R133). -/
  | returnTimerExpiry
  /-- LOSS_OF_POWER (R186). -/
  | lossOfPower
  deriving DecidableEq, Repr

end Sys2Proof
end

