-- ==== Sys2Proof/Machine/State.lean ====
section
/-! DEFINITION. The state of the HX-62: every record, register, timer, queue and pin the spec gives the part, block by
block, and the queue of waiting commands. Plain data throughout. -/

namespace Sys2Proof.Machine

/-! ### Enumerations -/

/-- The head-wide working mode (08 R157). -/
inductive Profile
  | off
  | measureOnly
  | process
  | fellProcess
  deriving DecidableEq, Repr

/-- The feed control value (05 R95). -/
inductive FeedValue
  | idle
  | grip
  | run
  deriving DecidableEq, Repr

/-- A direction of travel through the head. -/
inductive Heading
  | forward
  | reverse
  deriving DecidableEq, Repr

/-- The two phases of a stall recovery (R110, R111). -/
inductive Phase
  | back
  | forward
  deriving DecidableEq, Repr

/-- The feed states (05 section 5.2), with the direction of a correction (R102) and the phase of a recovery (R97). -/
inductive FeedState
  | idle
  | grip
  | seek
  | feed
  | approach
  | settle
  | correct (heading : Heading)
  | cutWait
  | recover (phase : Phase)
  | stalled
  | manual
  deriving DecidableEq, Repr

/-- The saw states (06 section 6.1). -/
inductive SawState
  | parked
  | advancing
  | returning
  | manual
  | fault
  | jammed
  deriving DecidableEq, Repr

/-- The knife states (07 section 7.2); `opened` is OPEN. -/
inductive KnifeState
  | opened
  | clamped
  | relief
  | boost
  | yielded
  deriving DecidableEq, Repr

/-- The kind of a line FAULT (04 R78): the reading above the window (OPEN) or below it (SHORT). -/
inductive FaultKind
  | opened
  | shorted
  deriving DecidableEq, Repr

/-- The supervision state of an arm line (04 R78). -/
inductive LineState
  | disabled
  | qualifying
  | ok
  | fault (kind : FaultKind)
  deriving DecidableEq, Repr

/-- The states of a stem record (01 section 1.2). A FREE slot holds no record; `opened` is OPEN. -/
inductive RecordState
  | opened
  | active
  | dropped
  | finished
  deriving DecidableEq, Repr

/-- A record's reference (01 R12). -/
inductive Reference
  | none
  | endSensed
  | cut
  deriving DecidableEq, Repr

/-- The states of a cut entry (02 R26). -/
inductive EntryState
  | pending
  | armed
  | cutting
  | done
  | skipped
  deriving DecidableEq, Repr

/-- Who placed an entry (02 R25). -/
inductive Origin
  | plan
  | filler
  | manual
  | direct
  deriving DecidableEq, Repr

/-- An encoder as length source (03 R58). -/
inductive Source
  | wheel
  | roller
  deriving DecidableEq, Repr

/-- The source mark of a log (03 R60, 02 R27). -/
inductive SourceMark
  | wheel
  | roller
  | mixed
  deriving DecidableEq, Repr

/-- The kind of a cut (02 section 2.5). -/
inductive CutKind
  | automatic
  | direct
  | manual
  deriving DecidableEq, Repr

/-- The outcome a CUT_DONE notice reports (02 R50). -/
inductive CutOutcome
  | entry
  | excess
  | excessUncounted
  | reference
  deriving DecidableEq, Repr

/-- The cause a STEM_STATE notice reports (01 R22). -/
inductive StemCause
  | drop
  | top
  deriving DecidableEq, Repr

/-- The argument of RESET (09 R187). -/
inductive ResetKind
  | normal
  | factory
  deriving DecidableEq, Repr

/-- The sixteen conditions, in the order of their bits (11.9). -/
inductive Condition
  | slip
  | wheelSuspect
  | creep
  | stall
  | lineFault
  | sawTimeout
  | sawJam
  | planEmpty
  | filler
  | overshoot
  | diamReject
  | drop
  | takeover
  | noEnd
  | storeFault
  | overrun
  deriving DecidableEq, Repr

/-- The answer codes (10 R193). Code 16, FAILED, answers no request. -/
inductive AnswerCode
  | ok
  | badRequest
  | badArgument
  | notReady
  | noSuchStem
  | noSuchEntry
  | staleRevision
  | tooLate
  | planFull
  | tableFull
  | inHead
  | headOccupied
  | inUse
  | busy
  | wrongState
  | notCalibratable
  deriving DecidableEq, Repr

/-! ### The stem table -/

/-- The planned fields of an entry (02 R25). -/
structure Planned where
  target : Int
  minus : Nat
  plus : Nat
  minDia : Option Nat
  assort : Nat
  origin : Origin
  deriving DecidableEq, Repr

/-- The flags of a log (02 R27). -/
structure ResultFlags where
  slip : Bool
  creep : Bool
  short : Bool
  long : Bool
  manual : Bool
  direct : Bool
  droppedDuringCut : Bool
  deriving DecidableEq, Repr

/-- The results of a cut (02 R27). -/
structure Results where
  actual : Int
  cutDia : Option Nat
  midDia : Option Nat
  rawWheel : Option Int
  source : SourceMark
  flags : ResultFlags
  corrections : Nat
  deriving DecidableEq, Repr

/-- One cut entry (02 R25 to R27), with the identity of R38. -/
structure Entry where
  ident : Nat
  state : EntryState
  plan : Planned
  results : Option Results
  deriving DecidableEq, Repr

/-- A stem record: the header of 01 R5 and the cut list of 02. `held` is the held remnant of R19, `nextIdent` the identity
the next entry placed in this record receives (R38). The log position and current diameter of the header are lent (R17). -/
structure Record where
  state : RecordState
  species : Fin 32
  reference : Reference
  felled : Bool
  stump : Option Nat
  revision : Word16
  entries : List Entry
  nextIdent : Nat
  logCount : Nat
  produced : Int
  excessCount : Nat
  excessLength : Int
  topRemnant : Option Int
  topSeen : Bool
  held : Option Int
  dropCount : Nat
  takeoverSeen : Bool
  deriving DecidableEq, Repr

/-- A slot: its generation and the record it holds, none when FREE (01 R1). -/
structure Slot where
  generation : Byte
  record : Option Record
  deriving DecidableEq, Repr

/-- What a bound cut will be recorded in (02 R41): nothing but a reference, with the profile and diameter noted at its
start (01 R13, R16); the entry of an identity; or a new entry or excess. The results are held with the cut (R27). -/
inductive CutTarget
  | reference (profile : Profile) (diameter : Option Nat)
  | entry (ident : Nat) (results : Results)
  | placed (results : Results)
  deriving DecidableEq, Repr

/-- The cut bound to a record (01 R16). -/
structure BoundCut where
  slot : Fin 8
  kind : CutKind
  target : CutTarget
  deriving DecidableEq, Repr

/-- The stem table controller's state (01 R1, R16). -/
structure Table where
  slots : Vector Slot 8
  bound : Option BoundCut
  deriving DecidableEq, Repr

/-! ### The measuring units -/

/-- A travel accumulator in whole µm and its remainder in millionths of a µm (03 R52, R53). -/
structure Encoder where
  acc : Int
  rem : Int
  deriving DecidableEq, Repr

/-- The wheel's contact state; SEATING carries its distance in µm (03 R55). -/
inductive Contact
  | lifted
  | seating (distance : Nat)
  | seated
  deriving DecidableEq, Repr

/-- The history of a log (03 R60); raw wheel travel in µm. -/
structure LogHistory where
  mark : SourceMark
  slip : Bool
  creep : Bool
  raw : Int
  deriving DecidableEq, Repr

/-- The carry of a cut in flight (03 R62); position in µm. -/
structure Carry where
  pos : Int
  log : LogHistory
  deriving DecidableEq, Repr

/-- An open slip window (03 R68); sums in µm. -/
structure SlipWindow where
  wheel : Int
  roller : Int
  deriving DecidableEq, Repr

/-- A creep interval (03 R71, R72): the head travel counter at its start, and whether CREEP was found in it. -/
structure CreepInterval where
  start : Int
  found : Bool
  deriving DecidableEq, Repr

/-- The length unit's state (03). Positions and sums in µm. `endCovered` is the end sensor's qualified level,
`endPending` the head travel counter noted for the pending change, `mirror` whether the reference mirror is established. -/
structure LengthUnit where
  wheel : Encoder
  roller : Encoder
  head : Int
  contact : Contact
  suspect : Bool
  logPos : Option Int
  history : Option LogHistory
  carry : Option Carry
  mirror : Bool
  slip : Option SlipWindow
  creep : Option CreepInterval
  endCovered : Bool
  endPending : Option Int
  deriving DecidableEq, Repr

/-- Supervision of one arm line (04 R78, R80): state, timed run in ms, latest out-of-window kind. -/
structure LineUnit where
  state : LineState
  run : Option Nat
  lastOut : Option FaultKind
  deriving DecidableEq, Repr

/-- The mid-diameter watch (04 R89): the target whose half is H, the capture, whether the first crossing has passed. -/
structure MidWatch where
  target : Option Int
  capture : Option Nat
  crossed : Bool
  deriving DecidableEq, Repr

/-- The diameter unit's state (04 R87). `distance` in µm; `entry` is the minimum of the ARMED entry it holds. -/
structure DiameterUnit where
  lines : Vector LineUnit 3
  distance : Option Nat
  gripWait : Option Nat
  samples : List Nat
  mid : MidWatch
  dropTimer : Option Nat
  entry : Option (Option Nat)
  hold : Bool
  deriving DecidableEq, Repr

/-! ### Feed, saw, knives, takeover -/

/-- The feed's held entry (05 R97). -/
structure HeldEntry where
  ident : Nat
  target : Int
  minus : Nat
  plus : Nat
  deriving DecidableEq, Repr

/-- The stall watch (05 R108): its reference on the head travel counter and its timer in ms. -/
structure StallWatch where
  base : Int
  elapsed : Nat
  deriving DecidableEq, Repr

/-- The feed's cut request (05 R97, R104). -/
inductive CutRequest
  | none
  | waiting (kind : CutKind)
  | taken (kind : CutKind)
  deriving DecidableEq, Repr

/-- The feed controller's state (05 R97). The recovery phase stands in the feed state; `settle` is the settle timer (R101). -/
structure Feed where
  value : FeedValue
  state : FeedState
  held : Option HeldEntry
  corrections : Nat
  attempts : Nat
  stallPoint : Option Int
  watch : Option StallWatch
  seekStart : Option Int
  seekSpent : Bool
  stallOut : Bool
  cutAsLies : Bool
  pendingDirect : Bool
  request : CutRequest
  settle : Option Nat
  deriving DecidableEq, Repr

/-- Whose cycle it is (06 R124). -/
inductive Owner
  | part
  | operator
  deriving DecidableEq, Repr

/-- Why the bar returns (06 R124). -/
inductive ReturnCause
  | completed
  | firstTimeout
  | secondTimeout
  deriving DecidableEq, Repr

/-- The cycle record (06 R124). -/
structure Cycle where
  owner : Owner
  kind : CutKind
  attempt : Nat
  cause : Option ReturnCause
  completionSeen : Bool
  commanded : Bool
  fromFault : Bool
  deriving DecidableEq, Repr

/-- The saw controller's state (06 R124). Timers in ms; `expectation` counts from the last frame with saw advance (R140). -/
structure Saw where
  state : SawState
  cycle : Option Cycle
  cutTimer : Option Nat
  returnTimer : Option Nat
  expectation : Option Nat
  deriving DecidableEq, Repr

/-- The knife controller's state (07 R145). -/
structure Knife where
  state : KnifeState
  pressure : Option Int
  override : Option Int
  deriving DecidableEq, Repr

/-- The four commands of a stick frame (08 R165). -/
structure StickImage where
  feedForward : Bool
  feedReverse : Bool
  knifeOpen : Bool
  sawAdvance : Bool
  deriving DecidableEq, Repr

/-- The takeover state (08 R166); SNOOPED carries its release timer in ms. -/
inductive Takeover
  | none
  | snooped (elapsed : Nat)
  | requested
  deriving DecidableEq, Repr

/-- The at-target guidance (08 R164): whether a window is held, the identity and planned fields last held, the mark. -/
structure Guidance where
  window : Bool
  last : Option (Nat × Planned)
  announced : Bool
  deriving DecidableEq, Repr

/-- The takeover monitor's state (08). `stick` is none while the image is clear. -/
structure Monitor where
  profile : Profile
  stick : Option StickImage
  takeover : Takeover
  guidance : Guidance
  deriving DecidableEq, Repr

/-! ### Species, settings, link -/

/-- A species record (09 section 9.1). -/
structure Species where
  valid : Bool
  wheelCorr : Int
  rollerCorr : Int
  diamGain : Int
  diamOffset : Int
  bark : Int
  knifeBase : Int
  knifeSlope : Int
  knifeMax : Int
  feedMax : Int
  feedApproach : Int
  approachDist : Int
  slipTol : Int
  creepThreshold : Int
  deriving DecidableEq, Repr

/-- The forty settings and the species table (09 R173, R183): a working or a stored copy. -/
structure Copy where
  settings : Vector Int 40
  species : Vector Species 32
  deriving DecidableEq, Repr

/-- The species and settings store (09). `inFlight` counts the ms since STORE was taken. -/
structure Store where
  working : Copy
  stored : Copy
  sound : Bool
  inFlight : Option Nat
  deriving DecidableEq, Repr

/-- Start-up and reset (09 R187 to R189): readiness, ms since start-up began while NOT_READY, the reset arranged. -/
structure Boot where
  ready : Bool
  elapsed : Option Nat
  resetPending : Option ResetKind
  deriving DecidableEq, Repr

/-- A frame the part sends: identifier and data field. -/
structure OutFrame where
  id : BusId
  data : List Byte
  deriving DecidableEq, Repr

/-- A stem ID as notices and answers carry it (01 R3). -/
structure StemId where
  slot : Nat
  generation : Byte
  deriving DecidableEq, Repr

/-- An answer (10 R192, R193): request code and tag echoed, answer code, the bytes of the results. -/
structure Answer where
  code : Byte
  tag : Byte
  answer : AnswerCode
  results : List Byte
  deriving DecidableEq, Repr

/-- A notice and its contents (10 R199, 11.7). -/
inductive Notice
  | stemState (stem : StemId) (state : RecordState) (cause : StemCause) (dropCount : Nat) (remnant : Option Int)
  | cutDone (stem : StemId) (outcome : CutOutcome) (index : Option Nat) (kind : CutKind) (actual : Option Int)
      (flags : Option ResultFlags) (revision : Word16) (logCount : Nat)
  | atTarget (stem : StemId) (index : Nat) (revision : Word16) (target : Int) (minus plus : Nat) (position : Int)
  | condition (newly word : Word16)
  | storeDone (ok : Bool)
  deriving DecidableEq, Repr

/-- An element of the send list (10 R194). -/
inductive SendItem
  | answer (a : Answer)
  | notice (n : Notice)
  deriving DecidableEq, Repr

/-- The feed demand (10 R200). -/
inductive FeedDemand
  | none
  | stop
  | forward (speed : Int)
  | reverse (speed : Int)
  deriving DecidableEq, Repr

/-- The knife demand (10 R200). -/
inductive KnifeDemand
  | none
  | opened
  | clamp (pressure : Int)
  deriving DecidableEq, Repr

/-- The saw demand (10 R200). -/
inductive SawDemand
  | none
  | advance
  | back
  deriving DecidableEq, Repr

/-- The valve demand image (10 R200). -/
structure Image where
  feed : FeedDemand
  knife : KnifeDemand
  saw : SawDemand
  deriving DecidableEq, Repr

/-- The link interface's state (10). `valve` is the valve command frame that waits, `refresh` its timer in ms,
`lastSent` the last frame that went to the bus without error (the model's own field, log 18). -/
structure Link where
  node : BitVec 4
  requests : List (List Byte)
  sendList : List SendItem
  conditions : Word16
  mask : Word16
  image : Image
  valve : Option OutFrame
  refresh : Option Nat
  errors : Nat
  busOff : Bool
  lastSent : Option OutFrame
  deriving DecidableEq, Repr

/-- The levels at the part's inputs (03 R55, R73; 04 R77; 06 R125; 09 R188). -/
structure Pins where
  homeClosed : Bool
  endOfStroke : Bool
  wheelClosed : Bool
  endCovered : Bool
  readings : Vector (BitVec 12) 3
  straps : BitVec 2
  deriving DecidableEq, Repr

/-- The whole part. `draws` counts the free values used (log 28). -/
structure Part where
  powered : Bool
  draws : Nat
  pins : Pins
  boot : Boot
  table : Table
  length : LengthUnit
  diameter : DiameterUnit
  feed : Feed
  saw : Saw
  knife : Knife
  monitor : Monitor
  store : Store
  link : Link
  deriving DecidableEq, Repr

/-- The part and the queue of the commands that wait, first in, first out. -/
structure State where
  part : Part
  pending : List Instr
  deriving DecidableEq, Repr

/-- Nothing the spec describes stops the part (log 25): there is no fault. No meaning raises one. -/
inductive Fault
  deriving DecidableEq, Repr

/-- Why a command has no meaning. -/
inductive Refusal
  /-- Raised by an arm of `exec` for a command that is not modelled yet. Safe: the model stops where the part goes on. -/
  | notModelled (mnemonic : String)
  deriving DecidableEq, Repr

/-! ### Reset values -/

/-- The stem table after every reset (01 R1): all slots FREE, generations 0, no cut bound. -/
def Table.reset : Table := { slots := Vector.replicate 8 { generation := 0, record := none }, bound := none }

/-- The length unit after a reset (03 R52, R55, R66, R73), with the contact switch and end sensor as first read. -/
def LengthUnit.reset (wheelClosed endCovered : Bool) : LengthUnit :=
  { wheel := ⟨0, 0⟩, roller := ⟨0, 0⟩, head := 0
    contact := if wheelClosed then .seating 0 else .lifted
    suspect := false, logPos := none, history := none, carry := none, mirror := false, slip := none, creep := none
    endCovered := endCovered, endPending := none }

/-- The mid-diameter watch with nothing held (04 R87). -/
def MidWatch.reset : MidWatch := { target := none, capture := none, crossed := false }

/-- The diameter unit after a reset (04 R87), over the lines as R78 starts them. -/
def DiameterUnit.reset (lines : Vector LineUnit 3) : DiameterUnit :=
  { lines, distance := none, gripWait := none, samples := [], mid := .reset, dropTimer := none, entry := none, hold := false }

/-- The feed controller after a reset (05 R95, R97). -/
def Feed.reset : Feed :=
  { value := .idle, state := .idle, held := none, corrections := 0, attempts := 0, stallPoint := none, watch := none
    seekStart := none, seekSpent := false, stallOut := false, cutAsLies := false, pendingDirect := false, request := .none
    settle := none }

/-- The saw controller after a reset (06 R124): PARKED with the home switch closed, JAMMED otherwise. -/
def Saw.reset (homeClosed : Bool) : Saw :=
  { state := if homeClosed then .parked else .jammed, cycle := none, cutTimer := none, returnTimer := none, expectation := none }

/-- The knife controller after a reset (07 R145). -/
def Knife.reset : Knife := { state := .opened, pressure := none, override := none }

/-- The at-target guidance after a reset (08 R164). -/
def Guidance.reset : Guidance := { window := false, last := none, announced := false }

/-- The takeover monitor after a reset (08 R157, R164 to R166). -/
def Monitor.reset : Monitor := { profile := .off, stick := none, takeover := .none, guidance := .reset }

/-- Start-up has begun (09 R188). -/
def Boot.reset : Boot := { ready := false, elapsed := some 0, resetPending := none }

/-- The valve demand image after a reset (10 R200). -/
def Image.reset (saw : SawState) : Image :=
  { feed := .none, knife := .opened, saw := match saw with | .jammed => .back | _ => .none }

/-- The link interface after a reset (10 R201), at the node address fixed by start-up. -/
def Link.reset (node : BitVec 4) (saw : SawState) : Link :=
  { node, requests := [], sendList := [], conditions := 0, mask := 0, image := .reset saw, valve := none, refresh := none
    errors := 0, busOff := false, lastSent := none }

/-- The built-in values of a species record (09 section 9.1). -/
def Species.builtIn (valid : Bool) : Species :=
  { valid, wheelCorr := 0, rollerCorr := 0, diamGain := 0, diamOffset := 0, bark := 8, knifeBase := 35, knifeSlope := 10
    knifeMax := 80, feedMax := 90, feedApproach := 20, approachDist := 400, slipTol := 20, creepThreshold := 30 }

/-- The built-in defaults (09 R173, section 9.3): species 0 valid, the others invalid, the forty settings. -/
def Copy.builtIn : Copy :=
  { settings := #v[0, 400, 600, 2, 250, 3000, 0, 3000, 30, 40, 150, 400, 300, 3, 20, 4000, 1500, 20, 1, 1, 1,
      100, 100, 100, 3995, 3995, 3995, 200, 200, 200, 0, 0, 0, 40, 90, 50, 0x2A0, 0x2B0, 1, 500]
    species := (Vector.replicate 32 (Species.builtIn false)).set 0 (Species.builtIn true) }

/-- The inputs of the machine after reset: levels the spec does not give (DESIGN CHOICE, log 2). -/
def Pins.reset : Pins :=
  { homeClosed := true, endOfStroke := false, wheelClosed := false, endCovered := false
    readings := Vector.replicate 3 100, straps := 0 }

/-- The part right after power-on with a sound stored copy that holds the built-in defaults (log 1). -/
def Part.reset : Part :=
  { powered := true, draws := 0, pins := .reset, boot := .reset, table := .reset, length := .reset false false
    diameter := .reset (Vector.replicate 3 { state := .qualifying, run := none, lastOut := none })
    feed := .reset, saw := .reset true, knife := .reset, monitor := .reset
    store := { working := .builtIn, stored := .builtIn, sound := true, inFlight := none }
    link := .reset 0 .parked }

/-- The machine right after reset (09 R188), with no command waiting. -/
def State.reset : State := { part := .reset, pending := [] }

end Sys2Proof.Machine
end

