-- ==== Sys2Proof/Machine/Flags.lean ====
section
/-! DEFINITION. The condition word: raising, clearing, and the notices that follow (10 R195 to R197). -/

namespace Sys2Proof.Machine

/-- The bit of a condition in the condition word and its masks (11.9). -/
def Condition.bit : Condition → Nat
  | .slip => 0
  | .wheelSuspect => 1
  | .creep => 2
  | .stall => 3
  | .lineFault => 4
  | .sawTimeout => 5
  | .sawJam => 6
  | .planEmpty => 7
  | .filler => 8
  | .overshoot => 9
  | .diamReject => 10
  | .drop => 11
  | .takeover => 12
  | .noEnd => 13
  | .storeFault => 14
  | .overrun => 15

/-- The word with the one bit of a condition set. -/
def Condition.word (c : Condition) : Word16 := BitVec.ofNat 16 (2 ^ c.bit)

/-- Whether a condition is raised in the condition word (R195). -/
def Part.raised (p : Part) (c : Condition) : Bool := p.link.conditions.getLsbD c.bit

/-- A notice joins the send list (R194). The list's limit of 16 is applied when the event is over (`concludeList`). -/
def place (n : Notice) (p : Part) : Part :=
  { p with link := { p.link with sendList := p.link.sendList ++ [.notice n] } }

/-- Raising a condition (R195, R197): a clear one latches and, unmasked, sends a CONDITION notice; a raised one stays. -/
def raise (c : Condition) (p : Part) : Part :=
  { p with link := { p.link with
      conditions := p.link.conditions ||| c.word
      sendList :=
        if p.raised c || p.link.mask.getLsbD c.bit then p.link.sendList
        else p.link.sendList ++ [.notice (.condition c.word (p.link.conditions ||| c.word))] } }

/-- Clearing the conditions that a clear mask names (R196). -/
def clearConditions (mask : Word16) (p : Part) : Part :=
  { p with link := { p.link with conditions := p.link.conditions &&& ~~~mask } }

end Sys2Proof.Machine
end

