-- ==== Sys2Proof/Machine/Ops.lean ====
section
/-! DEFINITION. The named operations over the part's records: slots and records, cut lists, settings, species, and the
views that the spec derives from state (the active record, the length source, the current diameter, the log position). -/

namespace Sys2Proof.Machine

/-! ### Slots and records -/

/-- The eight slots in rising order (01 R1). -/
def slotList : List (Fin 8) := [0, 1, 2, 3, 4, 5, 6, 7]

/-- The record in a slot, none when the slot is FREE (01 R1). -/
def Part.recordAt (p : Part) (i : Fin 8) : Option Record := p.table.slots[i].record

/-- Whether the slot holds the ACTIVE record. -/
def Part.isActive (p : Part) (i : Fin 8) : Bool :=
  match p.recordAt i with
  | some r => r.state == .active
  | none => false

/-- The slot of the ACTIVE record, if there is one (01 R7: at most one is). -/
def Part.activeSlot (p : Part) : Option (Fin 8) := slotList.find? p.isActive

/-- The ACTIVE record. -/
def Part.activeRecord (p : Part) : Option Record :=
  match p.activeSlot with
  | some i => p.recordAt i
  | none => none

/-- Whether a record is ACTIVE. -/
def Part.hasActive (p : Part) : Bool := p.activeSlot.isSome

/-- The part with another record in a slot; the generation is kept (01 R2). -/
def Part.setRecord (p : Part) (i : Fin 8) (r : Option Record) : Part :=
  { p with table := { p.table with slots := p.table.slots.set i.val { p.table.slots[i] with record := r } i.isLt } }

/-- The part with the record of a slot changed; a FREE slot stays FREE. -/
def Part.mapRecord (p : Part) (i : Fin 8) (f : Record → Record) : Part := p.setRecord i ((p.recordAt i).map f)

/-- The stem ID of a slot (01 R3). -/
def Part.stemId (p : Part) (i : Fin 8) : StemId := { slot := i.val, generation := p.table.slots[i].generation }

/-- The slot that a stem ID names: an existing slot that is not FREE, with the current generation (01 R3). -/
def Part.lookup (p : Part) (id : StemId) : Option (Fin 8) :=
  if h : id.slot < 8 then
    let i : Fin 8 := ⟨id.slot, h⟩
    if (p.recordAt i).isSome && p.table.slots[i].generation == id.generation then some i else none
  else none

/-- Whether a cut is bound to the record of a slot (01 R16). -/
def Part.boundTo (p : Part) (i : Fin 8) : Bool :=
  match p.table.bound with
  | some b => b.slot == i
  | none => false

/-- Whether a record's reference is established (01 R12). -/
def Record.established (r : Record) : Bool := r.reference != .none

/-- The reference of the ACTIVE record is established. -/
def Part.referenced (p : Part) : Bool :=
  match p.activeRecord with
  | some r => r.established
  | none => false

/-! ### Cut lists -/

/-- The first entry in a state, with its index. -/
def findState (st : EntryState) : List Entry → Option (Nat × Entry)
  | [] => none
  | e :: es => if e.state = st then some (0, e) else (findState st es).map fun (n, x) => (n + 1, x)

/-- The ARMED entry of a record (02 R26: at most one). -/
def Record.armed (r : Record) : Option Entry := (findState .armed r.entries).map (·.2)

/-- The first PENDING entry becomes ARMED; none if there is none (02 R37). -/
def armFirst : List Entry → Option (Entry × List Entry)
  | [] => none
  | e :: es =>
    if e.state = .pending then some ({ e with state := .armed }, { e with state := .armed } :: es)
    else (armFirst es).map fun (x, rest) => (x, e :: rest)

/-- The first entry with an identity and a state is changed; none if there is no such entry. -/
def changeFirst (ident : Nat) (st : EntryState) (f : Entry → Entry) : List Entry → Option (List Entry)
  | [] => none
  | e :: es =>
    if e.ident = ident ∧ e.state = st then some (f e :: es)
    else (changeFirst ident st f es).map (e :: ·)

/-- The place of a new DONE entry: directly after the last DONE entry, else the front (02 R43). -/
def afterDone : List Entry → Nat
  | [] => 0
  | e :: es =>
    match afterDone es with
    | 0 => if e.state = .done then 1 else 0
    | n + 1 => n + 2

/-- Where an entry of an identity stands in a list. -/
def indexOf (ident : Nat) (es : List Entry) : Option Nat := es.findIdx? (·.ident == ident)

/-- ARMED and PENDING entries become SKIPPED (02 R51). -/
def skipEntry (e : Entry) : Entry :=
  if e.state = .armed ∨ e.state = .pending then { e with state := .skipped } else e

/-- An ARMED entry returns to PENDING (01 R18). -/
def disarmEntry (e : Entry) : Entry := if e.state = .armed then { e with state := .pending } else e

/-- A cut list holds at most 12 entries (02 R26). -/
def listLimit : Nat := 12

/-! ### Settings and species -/

/-- A working setting by its number (09 R183). -/
def Part.setting (p : Part) (n : Fin 40) : Int := p.store.working.settings[n]

/-- WHEEL_PITCH, µm per count. -/
def Part.wheelPitch (p : Part) : Int := p.setting 1
/-- ROLLER_PITCH, µm per count. -/
def Part.rollerPitch (p : Part) : Int := p.setting 2
/-- END_SENSOR_OFFSET, mm. -/
def Part.endOffset (p : Part) : Int := p.setting 4
/-- STOP_LEAD, mm. -/
def Part.stopLead (p : Part) : Int := p.setting 9
/-- KNIFE_LIMIT, percent. -/
def Part.knifeLimit (p : Part) : Int := p.setting 34

/-- The species in use: that of the ACTIVE record (09 R174). -/
def Part.inUse (p : Part) : Option Species := p.activeRecord.map fun r => p.store.working.species[r.species]

/-- A value of the species in use, 0 where no species is in use: then no such value is read, but the two corrections,
which are 0 (09 R174, 03 R54). -/
def Part.speciesValue (p : Part) (f : Species → Int) : Int :=
  match p.inUse with
  | some s => f s
  | none => 0

/-- The wheel correction in force (03 R54). -/
def Part.wheelCorr (p : Part) : Int := p.speciesValue (·.wheelCorr)
/-- The roller correction in force (03 R54). -/
def Part.rollerCorr (p : Part) : Int := p.speciesValue (·.rollerCorr)

/-! ### Views of the measuring units -/

/-- The wheel is valid while SEATED and not suspect (03 R57). -/
def Part.wheelValid (p : Part) : Bool := p.length.contact == .seated && !p.length.suspect

/-- The selected length source (03 R58). -/
def Part.source (p : Part) : Source :=
  if p.setting 3 = 0 then .wheel
  else if p.setting 3 = 1 then .roller
  else if p.wheelValid then .wheel else .roller

/-- The source mark that the selected source gives a log that begins (03 R60, R62). -/
def Source.mark : Source → SourceMark
  | .wheel => .wheel
  | .roller => .roller

/-- A fresh log history or carry history (03 R62). -/
def Part.freshLog (p : Part) (raw : Int) : LogHistory := { mark := p.source.mark, slip := false, creep := false, raw }

/-- The log position in whole millimetres, truncated toward zero (03 R61; log 9). -/
def Part.logMm (p : Part) : Option Int := p.length.logPos.map (·.tdiv 1000)

/-- The current diameter: the mean of the sample list, truncated (04 R85). -/
def Part.currentDiameter (p : Part) : Option Nat :=
  match p.diameter.samples with
  | [] => none
  | x :: xs => some ((x :: xs).sum / (xs.length + 1))

/-- A log position or carry position held within −1,000 to +40,000 mm, in µm (03 R61, R63). -/
def clampPos (x : Int) : Int := max (-1000000) (min 40000000 x)

/-- Whether the profile sends valve command frames and lets the part feed: PROCESS or FELL_PROCESS (10 R200, 08 R157). -/
def Profile.works : Profile → Bool
  | .process => true
  | .fellProcess => true
  | .off => false
  | .measureOnly => false

/-- Whether a takeover is in force (08 R166). -/
def Takeover.inForce : Takeover → Bool
  | .none => false
  | .snooped _ => true
  | .requested => true

/-- Whether the part sends valve command frames now (10 R200): powered, in PROCESS or FELL_PROCESS, not in bus-off. -/
def Part.sendsValve (p : Part) : Bool := p.powered && p.monitor.profile.works && !p.link.busOff

/-- The position of an arm line among the three (04 R77). -/
def lineIdx : Line → Fin 3
  | .ka => 0
  | .kb => 1
  | .rl => 2

end Sys2Proof.Machine
end

