-- ==== Sys2Proof/Machine/Operands.lean ====
section
/-! DEFINITION. The byte layouts of chapter 11: reading request arguments, writing the images of answers and notices, the
valve command frame and the stick frame. -/

namespace Sys2Proof.Machine

/-! ### Reading (11.1, R202) -/

/-- Byte `i` of a field list, 0 beyond its end (a request too short for its arguments is screened out before, R192). -/
def byteAt (bs : List Byte) (i : Nat) : Byte := bs.getD i 0

/-- An unsigned byte. -/
def readU8 (bs : List Byte) (i : Nat) : Nat := (byteAt bs i).toNat

/-- An unsigned sixteen-bit number, least significant byte first, as a word. -/
def readWord (bs : List Byte) (i : Nat) : Word16 := byteAt bs (i + 1) ++ byteAt bs i

/-- An unsigned sixteen-bit number. -/
def readU16 (bs : List Byte) (i : Nat) : Nat := (readWord bs i).toNat

/-- A signed byte, two's complement. -/
def readI8 (bs : List Byte) (i : Nat) : Int := (byteAt bs i).toInt

/-- A signed sixteen-bit number. -/
def readI16 (bs : List Byte) (i : Nat) : Int := (readWord bs i).toInt

/-- A signed thirty-two-bit number, least significant byte first. -/
def readI32 (bs : List Byte) (i : Nat) : Int :=
  (byteAt bs (i + 3) ++ byteAt bs (i + 2) ++ byteAt bs (i + 1) ++ byteAt bs i : BitVec 32).toInt

/-- A stem ID: slot, then generation. -/
def readStem (bs : List Byte) : StemId := { slot := readU8 bs 0, generation := byteAt bs 1 }

/-- A sixteen-bit number that may be absent: 0xFFFF is absent. -/
def readOptU16 (bs : List Byte) (i : Nat) : Option Nat := if readU16 bs i = 0xFFFF then none else some (readU16 bs i)

/-- A thirty-two-bit number that may be absent: 0x7FFFFFFF is absent. -/
def readOptI32 (bs : List Byte) (i : Nat) : Option Int :=
  if readI32 bs i = 0x7FFFFFFF then none else some (readI32 bs i)

/-- A planned image of 9 bytes (11.3), as the planned fields of a PLAN entry. -/
def readPlanned (bs : List Byte) (i : Nat) : Planned :=
  { target := readI32 bs i, minus := readU8 bs (i + 4), plus := readU8 bs (i + 5), minDia := readOptU16 bs (i + 6)
    assort := readU8 bs (i + 8), origin := .plan }

/-- A species image of 23 bytes (11.5), as a valid species record. -/
def readSpeciesImage (bs : List Byte) (i : Nat) : Species :=
  { valid := true, wheelCorr := readI32 bs i, rollerCorr := readI32 bs (i + 4), diamGain := readI32 bs (i + 8)
    diamOffset := readI8 bs (i + 12), bark := readU8 bs (i + 13), knifeBase := readU8 bs (i + 14)
    knifeSlope := readU8 bs (i + 15), knifeMax := readU8 bs (i + 16), feedMax := readU8 bs (i + 17)
    feedApproach := readU8 bs (i + 18), approachDist := readU16 bs (i + 19), slipTol := readU8 bs (i + 21)
    creepThreshold := readU8 bs (i + 22) }

/-! ### Writing (11.1, R202) -/

/-- A number as one byte; a negative one in two's complement. -/
def u8 (x : Int) : List Byte := [BitVec.ofInt 8 x]

/-- A sixteen-bit word, least significant byte first. -/
def word16 (w : Word16) : List Byte := [w.extractLsb' 0 8, w.extractLsb' 8 8]

/-- A number as two bytes; a negative one in two's complement. -/
def u16 (x : Int) : List Byte := word16 (BitVec.ofInt 16 x)

/-- A signed number as four bytes. -/
def i32 (x : Int) : List Byte :=
  let w := BitVec.ofInt 32 x
  [w.extractLsb' 0 8, w.extractLsb' 8 8, w.extractLsb' 16 8, w.extractLsb' 24 8]

/-- A yes-or-no field. -/
def yesNo (b : Bool) : List Byte := [if b then 1 else 0]

/-- A byte that may be absent (0xFF). -/
def optU8 : Option Int → List Byte
  | none => [0xFF]
  | some x => u8 x

/-- Two bytes that may be absent (0xFFFF). -/
def optU16 : Option Nat → List Byte
  | none => [0xFF, 0xFF]
  | some x => u16 x

/-- Four bytes that may be absent (0x7FFFFFFF). -/
def optI32 : Option Int → List Byte
  | none => [0xFF, 0xFF, 0xFF, 0x7F]
  | some x => i32 x

/-! ### Codes (11.1, 10 R193) -/

/-- The code of an answer code (10 R193). -/
def AnswerCode.code : AnswerCode → Byte
  | .ok => 0
  | .badRequest => 1
  | .badArgument => 2
  | .notReady => 3
  | .noSuchStem => 4
  | .noSuchEntry => 5
  | .staleRevision => 6
  | .tooLate => 7
  | .planFull => 8
  | .tableFull => 9
  | .inHead => 10
  | .headOccupied => 11
  | .inUse => 12
  | .busy => 13
  | .wrongState => 14
  | .notCalibratable => 15

/-- Record states. -/
def RecordState.code : RecordState → Byte
  | .opened => 1
  | .active => 2
  | .dropped => 3
  | .finished => 4

/-- References. -/
def Reference.code : Reference → Byte
  | .none => 0
  | .endSensed => 1
  | .cut => 2

/-- Entry states. -/
def EntryState.code : EntryState → Byte
  | .pending => 0
  | .armed => 1
  | .cutting => 2
  | .done => 3
  | .skipped => 4

/-- Origins. -/
def Origin.code : Origin → Byte
  | .plan => 0
  | .filler => 1
  | .manual => 2
  | .direct => 3

/-- Length sources of a log. -/
def SourceMark.code : SourceMark → Byte
  | .wheel => 0
  | .roller => 1
  | .mixed => 2

/-- The length source in use (11.6). -/
def Source.code : Source → Byte
  | .wheel => 0
  | .roller => 1

/-- Profiles. -/
def Profile.code : Profile → Byte
  | .off => 0
  | .measureOnly => 1
  | .process => 2
  | .fellProcess => 3

/-- A profile from its code. -/
def Profile.ofCode (n : Nat) : Option Profile :=
  if n = 0 then some .off
  else if n = 1 then some .measureOnly
  else if n = 2 then some .process
  else if n = 3 then some .fellProcess
  else none

/-- Feed control values. -/
def FeedValue.code : FeedValue → Byte
  | .idle => 0
  | .grip => 1
  | .run => 2

/-- A feed control value from its code. -/
def FeedValue.ofCode (n : Nat) : Option FeedValue :=
  if n = 0 then some .idle else if n = 1 then some .grip else if n = 2 then some .run else none

/-- Feed states. -/
def FeedState.code : FeedState → Byte
  | .idle => 0
  | .grip => 1
  | .seek => 2
  | .feed => 3
  | .approach => 4
  | .settle => 5
  | .correct _ => 6
  | .cutWait => 7
  | .recover _ => 8
  | .stalled => 9
  | .manual => 10

/-- Saw states. -/
def SawState.code : SawState → Byte
  | .parked => 0
  | .advancing => 1
  | .returning => 2
  | .manual => 3
  | .fault => 4
  | .jammed => 5

/-- Knife states. -/
def KnifeState.code : KnifeState → Byte
  | .opened => 0
  | .clamped => 1
  | .relief => 2
  | .boost => 3
  | .yielded => 4

/-- Line supervision. -/
def LineState.code : LineState → Byte
  | .disabled => 0
  | .qualifying => 1
  | .ok => 2
  | .fault .opened => 3
  | .fault .shorted => 4

/-- Cut kinds. -/
def CutKind.code : CutKind → Byte
  | .automatic => 0
  | .direct => 1
  | .manual => 2

/-- CUT_DONE outcomes. -/
def CutOutcome.code : CutOutcome → Byte
  | .entry => 0
  | .excess => 1
  | .excessUncounted => 2
  | .reference => 3

/-- STEM_STATE causes. -/
def StemCause.code : StemCause → Byte
  | .drop => 0
  | .top => 1

/-! ### Images (11.3 to 11.6) -/

/-- A stem ID. -/
def stemBytes (s : StemId) : List Byte := u8 s.slot ++ [s.generation]

/-- The flags byte (11.3); bit 7 is 0. -/
def ResultFlags.byte (f : ResultFlags) : Byte :=
  BitVec.ofNat 8 (f.slip.toNat + 2 * f.creep.toNat + 4 * f.short.toNat + 8 * f.long.toNat + 16 * f.manual.toNat
    + 32 * f.direct.toNat + 64 * f.droppedDuringCut.toNat)

/-- The planned image. -/
def plannedImage (p : Planned) : List Byte :=
  i32 p.target ++ u8 p.minus ++ u8 p.plus ++ optU16 p.minDia ++ u8 p.assort

/-- The results of the entry image: absent codes where there are none. -/
def resultsImage : Option Results → List Byte
  | none => optI32 none ++ optU16 none ++ optU16 none ++ optI32 none ++ [0xFF, 0xFF, 0xFF]
  | some r =>
    i32 r.actual ++ optU16 r.cutDia ++ optU16 r.midDia ++ optI32 r.rawWheel
      ++ [r.source.code, r.flags.byte] ++ u8 r.corrections

/-- The entry image of 27 bytes. -/
def entryImage (index : Nat) (e : Entry) : List Byte :=
  u8 index ++ [e.state.code, e.plan.origin.code] ++ plannedImage e.plan ++ resultsImage e.results

/-- The stem header image of 33 bytes, with the lent log position and current diameter (01 R11, R17). Bits 3 to 7 of its flags
byte, of which 11.4 says nothing, are 0 (log 36). -/
def stemHeaderImage (id : StemId) (r : Record) (position : Option Int) (diameter : Option Nat) : List Byte :=
  stemBytes id ++ [r.state.code] ++ u8 r.species.val ++ [r.reference.code]
    ++ u8 (r.felled.toNat + 2 * r.topSeen.toNat + 4 * r.takeoverSeen.toNat : Nat) ++ optU16 r.stump ++ word16 r.revision
    ++ u8 r.entries.length ++ u16 r.logCount ++ i32 r.produced ++ u8 r.excessCount ++ i32 r.excessLength
    ++ optI32 r.topRemnant ++ u8 r.dropCount ++ optI32 position ++ optU16 diameter

/-- The species image of 23 bytes. -/
def speciesImage (s : Species) : List Byte :=
  i32 s.wheelCorr ++ i32 s.rollerCorr ++ i32 s.diamGain ++ u8 s.diamOffset ++ u8 s.bark ++ u8 s.knifeBase
    ++ u8 s.knifeSlope ++ u8 s.knifeMax ++ u8 s.feedMax ++ u8 s.feedApproach ++ u16 s.approachDist ++ u8 s.slipTol
    ++ u8 s.creepThreshold

/-- The STATUS image of 18 bytes (11.6, 10 R198). -/
def statusImage (p : Part) : List Byte :=
  yesNo p.boot.ready ++ u8 p.link.node.toNat ++ [p.monitor.profile.code, p.feed.value.code, p.feed.state.code,
    p.saw.state.code, p.knife.state.code]
    ++ (match p.activeSlot with
        | some i => stemBytes (p.stemId i)
        | none => [0xFF, 0xFF])
    ++ yesNo p.store.inFlight.isSome
    ++ [p.diameter.lines[0].state.code, p.diameter.lines[1].state.code, p.diameter.lines[2].state.code, p.source.code]
    ++ yesNo p.wheelValid ++ yesNo (p.link.conditions != 0) ++ word16 p.link.conditions

/-! ### Notices and frames (11.2, 11.7, 11.8) -/

/-- The data of a notice. -/
def Notice.data : Notice → List Byte
  | .stemState stem state cause dropCount remnant =>
    [1] ++ stemBytes stem ++ [state.code, cause.code] ++ u8 dropCount ++ optI32 remnant
  | .cutDone stem outcome index kind actual flags revision logCount =>
    [2] ++ stemBytes stem ++ [outcome.code] ++ optU8 (index.map Int.ofNat) ++ [kind.code] ++ optI32 actual
      ++ [match flags with | some f => f.byte | none => 0xFF] ++ word16 revision ++ u16 logCount
  | .atTarget stem index revision target minus plus position =>
    [3] ++ stemBytes stem ++ u8 index ++ word16 revision ++ i32 target ++ u8 minus ++ u8 plus ++ i32 position
  | .condition newly word => [4] ++ word16 newly ++ word16 word
  | .storeDone ok => [5, if ok then 0 else 16]

/-- The data of an answer: results for OK only (10 R193). -/
def Answer.data (a : Answer) : List Byte := [a.code, a.tag, a.answer.code] ++ a.results

/-- The next permitted data field length at or above a length (R202). -/
def permittedLength (n : Nat) : Nat :=
  if n ≤ 8 then n else if n ≤ 12 then 12 else if n ≤ 16 then 16 else if n ≤ 20 then 20 else if n ≤ 24 then 24
  else if n ≤ 32 then 32 else if n ≤ 48 then 48 else 64

/-- Bytes of 0x00 up to the next permitted length (R202). -/
def padFrame (bs : List Byte) : List Byte := bs ++ List.replicate (permittedLength bs.length - bs.length) 0

/-- The identifier of request frames for the node address in use (R190). -/
def requestId (node : BitVec 4) : BusId := 0x5A0 + node.setWidth 11
/-- The identifier of answers. -/
def answerId (node : BitVec 4) : BusId := 0x5B0 + node.setWidth 11
/-- The identifier of notices. -/
def noticeId (node : BitVec 4) : BusId := 0x5C0 + node.setWidth 11

/-- The frame of an element of the send list. -/
def SendItem.frame (node : BitVec 4) : SendItem → OutFrame
  | .answer a => { id := answerId node, data := padFrame a.data }
  | .notice n => { id := noticeId node, data := padFrame n.data }

/-- The valve command frame's data for an image (11.8, R204). -/
def valveData (i : Image) : List Byte :=
  (match i.feed with
    | .none => [0, 0]
    | .stop => [1, 0]
    | .forward v => [2] ++ u8 v
    | .reverse v => [3] ++ u8 v)
  ++ (match i.knife with
    | .none => [0, 0]
    | .opened => [1, 0]
    | .clamp v => [2] ++ u8 v)
  ++ (match i.saw with
    | .none => [0]
    | .advance => [1]
    | .back => [2])

/-- The release frame's data: all demands none (08 R163). -/
def releaseData : List Byte := [0, 0, 0, 0, 0]

/-- Byte 0 of a stick frame as its four commands (R204). -/
def readStick (b : Byte) : StickImage :=
  { feedForward := b.getLsbD 0, feedReverse := b.getLsbD 1, knifeOpen := b.getLsbD 2, sawAdvance := b.getLsbD 3 }

/-- The stick image as TAKEOVER reports it: 0x00 while clear (R204). -/
def stickByte : Option StickImage → Byte
  | none => 0
  | some s => BitVec.ofNat 8
      (s.feedForward.toNat + 2 * s.feedReverse.toNat + 4 * s.knifeOpen.toNat + 8 * s.sawAdvance.toNat)

/-- A stick frame with at least one command is active (08 R165). -/
def StickImage.active (s : StickImage) : Bool := s.feedForward || s.feedReverse || s.knifeOpen || s.sawAdvance

end Sys2Proof.Machine
end

