-- ==== Sys2Proof/Machine/Feed.lean ====
section
/-! DEFINITION. The feed controller's shared operations (05): entering a state, deciding afresh, the placement test, the
effect of a control value, what drop, finish, takeover and reference do to the feed, stalls and recovery. -/

namespace Sys2Proof.Machine

/-! ### States -/

/-- The direction that a state demands and its stall watch watches; none outside the motion states (05 5.2, R108). -/
def FeedState.heading : FeedState → Option Heading
  | .seek => some .reverse
  | .feed => some .forward
  | .approach => some .forward
  | .correct h => some h
  | .recover .back => some .reverse
  | .recover .forward => some .forward
  | .idle => none
  | .grip => none
  | .settle => none
  | .cutWait => none
  | .stalled => none
  | .manual => none

/-- FEED, APPROACH, SEEK, CORRECT and RECOVER are the motion states (05 5.2). -/
def FeedState.motion (s : FeedState) : Bool := s.heading.isSome

/-- The four states in which a creep interval runs (03 R71). -/
def FeedState.still : FeedState → Bool
  | .grip => true
  | .settle => true
  | .cutWait => true
  | .stalled => true
  | .idle => false
  | .seek => false
  | .feed => false
  | .approach => false
  | .correct _ => false
  | .recover _ => false
  | .manual => false

/-- States that keep the attempt count (R97) and the latest stall's point (R109, R110). -/
def FeedState.keepsAttempts : FeedState → Bool
  | .recover _ => true
  | .stalled => true
  | .idle => false
  | .grip => false
  | .seek => false
  | .feed => false
  | .approach => false
  | .settle => false
  | .correct _ => false
  | .cutWait => false
  | .manual => false

/-- The feed's own part of entering a state: watch (R108), seek start (R106), settle timer (R101), attempt count (R97),
stall point, the cut-as-lies mark on leaving SETTLE (R101), the stall-out mark on entering STALLED (R112), and the end of
the cut request on leaving CUT_WAIT (R105). -/
def Feed.enter (f : Feed) (st : FeedState) (head : Int) : Feed :=
  { f with
    state := st
    attempts := if st.keepsAttempts then f.attempts else 0
    stallPoint := if st.keepsAttempts then f.stallPoint else none
    watch := if st.motion then some { base := head, elapsed := 0 } else none
    seekStart := if st = .seek then some head else none
    settle := if st = .settle then some 0 else none
    cutAsLies := if f.state = .settle then false else f.cutAsLies
    stallOut := f.stallOut || st == .stalled
    request := if f.state = .cutWait then .none else f.request }

/-- A creep interval begins at each entry into GRIP, SETTLE, CUT_WAIT or STALLED with a record ACTIVE, and ends at any
other entry (03 R71). -/
def Part.creepOnEntry (p : Part) (st : FeedState) : Option CreepInterval :=
  if st.still && p.hasActive then some { start := p.length.head, found := false } else none

/-- Entering a feed state. Taking the state already held is no entry (log 10). -/
def enterFeed (st : FeedState) (p : Part) : Part :=
  if st = p.feed.state then p
  else
    let q : Part := { p with
      feed := p.feed.enter st p.length.head
      length := { p.length with creep := p.creepOnEntry st } }
    if st = .stalled then raise .stall q else q

/-! ### Deciding -/

/-- The placement test: where a RUN feed begins or resumes its work toward the target (R99). -/
def Part.placement (p : Part) : FeedState :=
  match p.feed.held, p.logMm with
  | some e, some pos =>
    if e.target - p.stopLead ≤ pos then .settle
    else if e.target - p.speciesValue (·.approachDist) ≤ pos then .approach
    else .feed
  | _, _ => .grip

/-- The decision table with a record ACTIVE, no takeover and the value RUN: rows 5 to 12 (R98). -/
def Part.decideRun (p : Part) (r : Record) : FeedState :=
  if p.feed.stallOut then .stalled
  else if p.saw.state ≠ .parked then .grip
  else if p.diameter.hold then .grip
  else if r.reference = .none then
    if p.monitor.profile = .fellProcess ∧ r.felled = false then .grip
    else if p.feed.seekSpent then .grip
    else .seek
  else if p.feed.held = none then .grip
  else p.placement

/-- The decision table (R98). -/
def Part.decision (p : Part) : FeedState :=
  match p.activeRecord with
  | none => .idle
  | some r =>
    if p.monitor.profile.works = false then .idle
    else if p.monitor.takeover.inForce then .manual
    else
      match p.feed.value with
      | .idle => .idle
      | .grip => .grip
      | .run => p.decideRun r

/-- The pending direct cut is cleared and a request not yet taken is withdrawn (R115). -/
def Feed.withdraw (f : Feed) : Feed :=
  { f with
    pendingDirect := false
    request :=
      match f.request with
      | .waiting _ => .none
      | .none => .none
      | .taken k => .taken k }

/-- Deciding afresh (R98): a pending direct cut not yet at its cut start is cleared (R115), then the table gives the state. -/
def feedDecide (p : Part) : Part :=
  let q : Part := { p with feed := p.feed.withdraw }
  enterFeed q.decision q

/-- Whether the feed waits in CUT_WAIT for a cut that the saw has taken (R96, R105). -/
def Feed.cutTaken (f : Feed) : Bool :=
  match f.state, f.request with
  | .cutWait, .taken _ => true
  | _, _ => false

/-- The effect of a control value, by SET FEED or by the part (R95, R96). -/
def feedSetValue (v : FeedValue) (p : Part) : Part :=
  match v with
  | .run =>
    let q : Part := { p with feed := { p.feed with value := .run, seekSpent := false, stallOut := false } }
    match q.feed.state with
    | .idle => feedDecide q
    | .grip => feedDecide q
    | .stalled => feedDecide q
    | _ => q
  | _ =>
    let q : Part := { p with feed := { p.feed.withdraw with value := v } }
    if q.feed.cutTaken then q else feedDecide q

/-! ### Events from other blocks -/

/-- Drop or finish of the active record, at the feed (R119). -/
def feedEnd (p : Part) : Part :=
  enterFeed .idle { p with feed := { p.feed with
    value := .idle, held := none, corrections := 0, seekSpent := false, stallOut := false, cutAsLies := false
    pendingDirect := false, request := .none } }

/-- ATTACH STEM at the feed (R119). -/
def feedAttach (p : Part) : Part :=
  feedDecide { p with feed := { p.feed with
    value := .grip, held := none, corrections := 0, seekSpent := false, stallOut := false, cutAsLies := false } }

/-- The beginning of a takeover at the feed (R118). -/
def feedTakeover (p : Part) : Part :=
  if p.hasActive && p.monitor.profile.works then
    enterFeed .manual { p with feed := { p.feed with pendingDirect := false, request := .none, stallOut := false } }
  else { p with feed := p.feed.withdraw }

/-- Reference established, at the feed (R119). -/
def feedReferenced (p : Part) : Part :=
  let q : Part := { p with feed := { p.feed with seekSpent := false } }
  match q.feed.state with
  | .seek => feedDecide q
  | .grip => feedDecide q
  | _ => q

/-- A taken SET PROFILE at the feed, with the value it sets (R121). -/
def feedProfile (v : FeedValue) (p : Part) : Part :=
  feedDecide { p with feed := { p.feed with
    value := v, seekSpent := false, stallOut := false, cutAsLies := false, pendingDirect := false, request := .none } }

/-- The saw has left PARKED for a manual cycle, or enters MANUAL while a request waits (R117, R105). -/
def feedSawLeft (p : Part) : Part :=
  match p.feed.state with
  | .feed => feedDecide p
  | .approach => feedDecide p
  | .seek => feedDecide p
  | .settle => feedDecide p
  | .correct _ => feedDecide p
  | .recover _ => feedDecide p
  | .cutWait => if p.feed.cutTaken then p else feedDecide p
  | .idle => p
  | .grip => p
  | .stalled => p
  | .manual => p

/-- The saw has become PARKED: a feed in GRIP decides afresh (R117). -/
def feedSawParked (p : Part) : Part := if p.feed.state = .grip then feedDecide p else p

/-- The requested cycle has completed or failed: a feed in CUT_WAIT ends its request and decides afresh (R105, R133). -/
def feedCutOver (p : Part) : Part :=
  if p.feed.cutTaken then feedDecide { p with feed := { p.feed with request := .none } } else p

/-! ### Stalls, seek, recovery, correction -/

/-- The seek ends with NO_END (R106). -/
def seekEnds (p : Part) : Part :=
  raise .noEnd (feedDecide { p with feed := { p.feed with seekSpent := true } })

/-- A stall in FEED, APPROACH or RECOVER FORWARD (R109). -/
def stallFound (p : Part) : Part :=
  let n := p.feed.attempts + 1
  let q : Part := { p with feed := { p.feed with attempts := n, stallPoint := some p.length.head } }
  enterFeed (if p.setting 13 < (n : Int) then .stalled else .recover .back) q

/-- Whether a recovery's forward phase has succeeded (R111). -/
def Part.recoverySucceeds (p : Part) : Bool :=
  (match p.feed.stallPoint with
    | some s => decide (s + 200000 ≤ p.length.head)
    | none => false)
  || (match p.feed.held, p.logMm with
    | some e, some pos => decide (e.target - p.stopLead ≤ pos)
    | _, _ => false)

/-- The forward phase of a recovery, tested for success (R111). -/
def recoveryCheck (p : Part) : Part :=
  if p.feed.state = .recover .forward ∧ p.recoverySucceeds then enterFeed p.placement p else p

/-- The feed goes to phase FORWARD of its recovery (R110, R109), and the phase is tested at once (log 23). -/
def recoverForward (p : Part) : Part := recoveryCheck (enterFeed (.recover .forward) p)

/-- A stall while correcting: SETTLE with the cut-as-lies mark (R102). -/
def correctionStalls (p : Part) : Part :=
  let q := enterFeed .settle p
  { q with feed := { q.feed with cutAsLies := true } }

/-- What a stall leads to, by the state it is found in (R109). -/
def stallOutcome (p : Part) : Part :=
  match p.feed.state with
  | .feed => stallFound p
  | .approach => stallFound p
  | .recover .forward => stallFound p
  | .recover .back => recoverForward p
  | .correct _ => correctionStalls p
  | .seek => seekEnds p
  | .idle => p
  | .grip => p
  | .settle => p
  | .cutWait => p
  | .stalled => p
  | .manual => p

/-- The stall watch on travel: 5 mm or more in the watched direction restarts it (R108). -/
def stallProgress (p : Part) : Part :=
  match p.feed.watch, p.feed.state.heading with
  | some w, some h =>
    let gain : Int := match h with
      | .forward => p.length.head - w.base
      | .reverse => w.base - p.length.head
    if 5000 ≤ gain then { p with feed := { p.feed with watch := some { base := p.length.head, elapsed := 0 } } } else p
  | _, _ => p

/-- FEED and APPROACH at a count of the selected source that has moved the log position from `before` (R100): a count that leaves
it where it was, at an end of its range, is not compared. -/
def targetCompare (before : Option Int) (p : Part) : Part :=
  match p.feed.held, p.logMm with
  | some e, some pos =>
    if p.length.logPos = before then p
    else if e.target - p.stopLead ≤ pos then enterFeed .settle p
    else if p.feed.state = .feed ∧ e.target - p.speciesValue (·.approachDist) ≤ pos then enterFeed .approach p
    else p
  | _, _ => p

/-- The feed's comparisons after a count of the selected source (R100, R102, R106, R110, R111). -/
def feedCompare (before : Option Int) (p : Part) : Part :=
  match p.feed.state with
  | .feed => targetCompare before p
  | .approach => targetCompare before p
  | .correct h =>
    match p.feed.held, p.logMm with
    | some e, some pos =>
      let there := match h with
        | .forward => decide (e.target ≤ pos)
        | .reverse => decide (pos ≤ e.target)
      if there then enterFeed .settle p else p
    | _, _ => p
  | .seek =>
    match p.feed.seekStart with
    | some s => if p.setting 5 * 1000 ≤ s - p.length.head then seekEnds p else p
    | none => p
  | .recover .back =>
    match p.feed.stallPoint with
    | some s => if p.setting 12 * 1000 ≤ s - p.length.head then recoverForward p else p
    | none => p
  | .recover .forward => recoveryCheck p
  | .idle => p
  | .grip => p
  | .settle => p
  | .cutWait => p
  | .stalled => p
  | .manual => p

/-- Travel of the stem at the feed: the stall watch, then the comparisons. -/
def feedTravel (before : Option Int) (p : Part) : Part := feedCompare before (stallProgress p)

/-! ### Reaction to the ARMED entry (R116) -/

/-- The feed takes the ARMED entry handed on, or that there is none, and acts by its state (R116, 5.7). -/
def feedReact (armed : Bool) (p : Part) : Part :=
  match p.feed.state with
  | .feed => if armed then enterFeed p.placement p else feedDecide p
  | .approach => if armed then enterFeed p.placement p else feedDecide p
  | .settle => if armed then p else feedDecide p
  | .correct _ => if armed then p else feedDecide p
  | .recover _ => if armed then recoveryCheck p else feedDecide p
  | .grip => feedDecide p
  | .idle => p
  | .seek => p
  | .cutWait => p
  | .stalled => p
  | .manual => p

/-! ### Reaction to a hold (R120) -/

/-- A minimum-diameter hold that has come into force reaches the feed (R120): a feed in FEED, APPROACH or RECOVER decides
afresh; in every other state the hold is recorded. -/
def feedHold (p : Part) : Part :=
  match p.feed.state with
  | .feed => feedDecide p
  | .approach => feedDecide p
  | .recover _ => feedDecide p
  | .settle => p
  | .correct _ => p
  | .cutWait => p
  | .grip => p
  | .stalled => p
  | .manual => p
  | .idle => p
  | .seek => p

/-! ### Demand (5.2, R122) -/

/-- The feed demand of the present state, with the species speeds read live. -/
def Part.feedDemand (p : Part) : FeedDemand :=
  let slow := p.speciesValue (·.feedApproach)
  let fast := p.speciesValue (·.feedMax)
  match p.feed.state with
  | .idle => .none
  | .manual => .none
  | .grip => .stop
  | .settle => .stop
  | .cutWait => .stop
  | .stalled => .stop
  | .seek => .reverse slow
  | .feed => .forward fast
  | .approach => .forward slow
  | .correct .forward => .forward slow
  | .correct .reverse => .reverse slow
  | .recover .back => .reverse slow
  | .recover .forward => .forward fast

end Sys2Proof.Machine
end

