-- ==== Sys2Proof/Machine/Plan.lean ====
section
/-! DEFINITION. The stem table controller's shared operations (01, 02): handing the ARMED entry on, arming, plan underflow,
drop, finish and reference, and the entering of cuts at their start, completion and abort. -/

namespace Sys2Proof.Machine

/-! ### At-target guidance (08 R164) -/

/-- Whether a position lies in an entry's cut window, both ends included (02 R25). -/
def Planned.contains (e : Planned) (pos : Int) : Bool :=
  decide (e.target - e.minus ≤ pos) && decide (pos ≤ e.target + e.plus)

/-- The guidance's test: in MEASURE_ONLY, a window held, the position within it, no notice yet (08 R164). -/
def guidanceTest (p : Part) : Part :=
  match p.monitor.profile, p.monitor.guidance.last, p.activeSlot, p.activeRecord, p.logMm with
  | .measureOnly, some (ident, plan), some i, some r, some pos =>
    if p.monitor.guidance.window && !p.monitor.guidance.announced && plan.contains pos then
      place (.atTarget (p.stemId i) ((indexOf ident r.entries).getD 0) r.revision plan.target plan.minus plan.plus pos)
        { p with monitor := { p.monitor with guidance := { p.monitor.guidance with announced := true } } }
    else p
  | _, _, _, _, _ => p

/-- The guidance takes what the stem table hands on (08 R164): the entry last held keeps its mark (log 21). -/
def Guidance.take (g : Guidance) : Option Entry → Guidance
  | none => { g with window := false }
  | some e =>
    if g.last = some (e.ident, e.plan) then { g with window := true }
    else { window := true, last := some (e.ident, e.plan), announced := false }

/-! ### Handing the ARMED entry on (02 R38) -/

/-- Whether half a target, in µm, already lies behind a log position (04 R89). -/
def halfBehind (logPos : Option Int) (target : Int) : Bool := logPos.any fun x => decide (500 * target ≤ x)

/-- The mid-diameter watch takes the target handed on, at a log position (04 R89). A target whose half already lies behind yields
no crossing in this log, also where the stem is backed below it and fed over it again (log 40). -/
def MidWatch.take (m : MidWatch) (logPos : Option Int) : Option Entry → MidWatch
  | none => m
  | some e =>
    if m.target = some e.plan.target then m
    else { target := some e.plan.target, capture := none, crossed := halfBehind logPos e.plan.target }

/-- The diameter unit takes the ARMED entry, at a log position: any hand-over ends a hold (04 R93), the watches take the entry
(R89, R92). -/
def DiameterUnit.take (d : DiameterUnit) (logPos : Option Int) (e : Option Entry) : DiameterUnit :=
  { d with entry := e.map (·.plan.minDia), hold := false, mid := d.mid.take logPos e }

/-- The feed's copy of the ARMED entry (05 R97). -/
def Entry.heldEntry (e : Entry) : HeldEntry :=
  { ident := e.ident, target := e.plan.target, minus := e.plan.minus, plus := e.plan.plus }

/-- The feed takes the ARMED entry; the correction count starts again for a newly armed or changed one (05 R103). -/
def Feed.take (f : Feed) (e : Option Entry) (fresh : Bool) : Feed :=
  { f with held := e.map Entry.heldEntry, corrections := if fresh && e.isSome then 0 else f.corrections }

/-- The hand-over (02 R38) to the diameter unit, the feed and the guidance; then the feed acts (05 R116) and, for an entry,
the guidance tests (08 R164). `fresh` says that the occasion restarts the correction count (05 R103). -/
def handOver (e : Option Entry) (fresh : Bool) (p : Part) : Part :=
  let q : Part := { p with
    diameter := p.diameter.take p.length.logPos e
    feed := p.feed.take e fresh
    monitor := { p.monitor with guidance := p.monitor.guidance.take e } }
  let r := feedReact e.isSome q
  if e.isSome then guidanceTest r else r

/-! ### Arming (02 R37, R39, R40) -/

/-- What an arming occasion came to. -/
inductive Arming
  | nothing
  | armed (e : Entry)
  | filler (e : Entry)
  | empty
  deriving DecidableEq, Repr

/-- The planned fields of a filler, from the settings as they stand (02 R39). -/
def Part.fillerPlan (p : Part) : Planned :=
  { target := p.setting 7, minus := (p.setting 8).toNat, plus := (p.setting 8).toNat, minDia := none, assort := 255
    origin := .filler }

/-- An entry joins the end of a record's list with a new identity, and the revision moves on (02 R28, R38). -/
def Record.appendEntry (r : Record) (st : EntryState) (plan : Planned) : Record :=
  { r with
    entries := r.entries ++ [{ ident := r.nextIdent, state := st, plan, results := none }]
    nextIdent := r.nextIdent + 1
    revision := r.revision + 1 }

/-- The four conditions of the arming test (02 R37). -/
def Record.mayArm (r : Record) : Bool :=
  r.state == .active && r.established && (findState .armed r.entries).isNone && (findState .cutting r.entries).isNone
    && !r.topSeen

/-- The arming test on a record: the first PENDING entry, else a filler, else the plan is empty (02 R37, R39, R40). -/
def Part.armingTest (p : Part) (r : Record) : Record × Arming :=
  if r.mayArm then
    match armFirst r.entries with
    | some (e, es) => ({ r with entries := es }, .armed e)
    | none =>
      if p.setting 6 = 1 ∧ r.entries.length < listLimit then
        (r.appendEntry .armed p.fillerPlan,
          .filler { ident := r.nextIdent, state := .armed, plan := p.fillerPlan, results := none })
      else (r, .empty)
  else (r, .nothing)

/-- What the outcome of an arming occasion hands on (02 R38 to R40). -/
def armingHands (a : Arming) (p : Part) : Part :=
  match a with
  | .nothing => p
  | .armed e => handOver (some e) true p
  | .filler e => handOver (some e) true (raise .filler p)
  | .empty => handOver none false (raise .planEmpty p)

/-- An arming occasion of the record in a slot (02 R37). -/
def arm (i : Fin 8) (p : Part) : Part :=
  match p.recordAt i with
  | none => p
  | some r =>
    let (r', a) := p.armingTest r
    armingHands a (p.setRecord i (some r'))

/-! ### The end of an ACTIVE period -/

/-- The length unit at the end of an ACTIVE period (03 R66). A carry is kept for a bound cut. -/
def LengthUnit.endPeriod (l : LengthUnit) : LengthUnit :=
  { l with logPos := none, history := none, slip := none, creep := none, suspect := false, mirror := false }

/-- The diameter unit at the end of an ACTIVE period (04 R87). -/
def DiameterUnit.endPeriod (d : DiameterUnit) : DiameterUnit :=
  { d with distance := none, gripWait := none, samples := [], mid := .reset, dropTimer := none, entry := none, hold := false }

/-- The drop or finish event at the length, diameter and feed blocks and the guidance (01 R9, R18, R19; 08 R164). The
knives follow from the feed and the record (07 R146). -/
def endPeriod (p : Part) : Part :=
  feedEnd { p with
    length := p.length.endPeriod
    diameter := p.diameter.endPeriod
    monitor := { p.monitor with guidance := .reset } }

/-- A record goes to FINISHED; ARMED and PENDING entries become SKIPPED (01 R9, 02 R51). -/
def Record.finish (r : Record) : Record :=
  { r with state := .finished, entries := r.entries.map skipEntry, held := none }

/-- A record finished by its top (01 R19, R20). -/
def Record.finishTop (r : Record) (remnant : Int) : Record :=
  { r.finish with topSeen := true, topRemnant := some remnant }

/-- The part finishes the ACTIVE record of a slot by its top: record, STEM_STATE notice, finish event (01 R19, R20). -/
def finishTop (i : Fin 8) (r : Record) (remnant : Int) (p : Part) : Part :=
  endPeriod (place (.stemState (p.stemId i) .finished .top r.dropCount (some remnant))
    (p.setRecord i (some (r.finishTop remnant))))

/-- A record goes to DROPPED (01 R18, items 1 to 5). -/
def Record.drop (r : Record) : Record :=
  { r with state := .dropped, reference := .none, entries := r.entries.map disarmEntry, dropCount := min (r.dropCount + 1) 15 }

/-- The in-force values of the selected source whose change marks a log MIXED (03 R59). -/
def Part.inForce (p : Part) : Source × Int × Int :=
  match p.source with
  | .wheel => (.wheel, p.wheelPitch, p.wheelCorr)
  | .roller => (.roller, p.rollerPitch, p.rollerCorr)

/-- The pitches and corrections whose change discards a slip window (03 R68). -/
def Part.scales (p : Part) : Int × Int × Int × Int := (p.wheelPitch, p.rollerPitch, p.wheelCorr, p.rollerCorr)

/-- The log history and the carry are marked MIXED (03 R59). -/
def LengthUnit.mixed (l : LengthUnit) : LengthUnit :=
  { l with
    history := l.history.map fun h => { h with mark := .mixed }
    carry := l.carry.map fun c => { c with log := { c.log with mark := .mixed } } }

/-- What a change from `p` to `q` means for the log and the slip window (03 R59, R68). -/
def rescale (p q : Part) : Part :=
  let l := if p.inForce = q.inForce then q.length else q.length.mixed
  { q with length := { l with slip := if p.scales = q.scales then l.slip else none } }

/-- A drop report acts on the ACTIVE record (01 R18). With none ACTIVE it changes nothing. -/
def dropReport (p : Part) : Part :=
  match p.activeSlot, p.activeRecord with
  | some i, some r =>
    let q := p.setRecord i (some r.drop)
    place (.stemState (q.stemId i) .dropped .drop r.drop.dropCount none) (raise .drop (rescale p (endPeriod q)))
  | _, _ => p

/-! ### Reference and top (01 R12, R19) -/

/-- Reference has become established in the record of a slot: the feed takes it, then the arming test runs (01 R12). -/
def established (i : Fin 8) (p : Part) : Part := arm i (feedReferenced p)

/-- A reference report makes the ACTIVE record END_SENSED (01 R12). -/
def referenceReport (p : Part) : Part :=
  match p.activeSlot, p.activeRecord with
  | some i, some r =>
    if r.reference = .none then established i (p.setRecord i (some { r with reference := .endSensed })) else p
  | _, _ => p

/-- Whether a top seen record has a cut to wait for (01 R19). -/
def Part.topWaits (p : Part) (i : Fin 8) (r : Record) (remnant : Int) : Bool :=
  p.boundTo i ||
    (match r.armed with
      | some e => decide (e.plan.target - e.plan.minus ≤ remnant)
      | none => false)

/-- A top seen report with its remnant (01 R19). -/
def topReport (remnant : Int) (p : Part) : Part :=
  match p.activeSlot, p.activeRecord with
  | some i, some r =>
    if r.topSeen then p
    else if p.topWaits i r remnant then p.setRecord i (some { r with topSeen := true, held := some remnant })
    else finishTop i r remnant p
  | _, _ => p

/-! ### Cut start (02 R41) -/

/-- A new log begins: the mid-diameter capture is discarded and the crossing may be taken afresh; a log that begins with no
entry ARMED has no half target until one is (04 R89; log 32). -/
def MidWatch.newLog (m : MidWatch) (armed : Bool) : MidWatch :=
  { target := if armed then m.target else none, capture := none, crossed := false }

/-- The diameter unit at the beginning of a log (04 R89). -/
def DiameterUnit.newLog (d : DiameterUnit) : DiameterUnit := { d with mid := d.mid.newLog d.entry.isSome }

/-- The flags of a log at its cut start, measured against an entry's window where an entry records it (02 R41, R42). -/
def startFlags (log : Option LogHistory) (kind : CutKind) (entry : Option Planned) (actual : Int) : ResultFlags :=
  { slip := (log.map (·.slip)).getD false
    creep := (log.map (·.creep)).getD false
    short := (entry.map fun e => decide (actual < e.target - e.minus)).getD false
    long := (entry.map fun e => decide (e.target + e.plus < actual)).getD false
    manual := kind == .manual
    direct := kind == .direct || (kind == .automatic && entry.isNone)
    droppedDuringCut := false }

/-- The raw wheel length in mm that an eligible log hands on (03 R60). -/
def LogHistory.rawLength (h : LogHistory) : Option Int :=
  if h.mark = .wheel ∧ h.slip = false then some (h.raw.tdiv 1000) else none

/-- The results taken at a cut start from the length, diameter and feed blocks (02 R41, 03 R62, 04 R88). -/
def Part.takeResults (p : Part) (kind : CutKind) (entry : Option Planned) : Results :=
  let actual := p.logMm.getD 0
  { actual
    cutDia := p.currentDiameter
    midDia := p.diameter.mid.capture
    rawWheel := p.length.history.bind LogHistory.rawLength
    source := (p.length.history.map (·.mark)).getD p.source.mark
    flags := startFlags p.length.history kind entry actual
    corrections := if entry.isSome then p.feed.corrections else 0 }

/-- Whether the cut makes the ARMED entry CUTTING (02 R41): always for a cut of the part; for a manual cut when it lies in
the window or the list is full. -/
def cutTakesEntry (kind : CutKind) (e : Entry) (actual : Int) (count : Nat) : Bool :=
  match kind with
  | .automatic => true
  | .direct => true
  | .manual => e.plan.contains actual || decide (listLimit ≤ count)

/-- The entry that a cut start makes CUTTING, if any (02 R41). -/
def Part.cutEntry (p : Part) (r : Record) (kind : CutKind) : Option Entry :=
  match r.armed with
  | some e => if cutTakesEntry kind e (p.logMm.getD 0) r.entries.length then some e else none
  | none => none

/-- The entry becomes CUTTING. -/
def Entry.toCutting (e : Entry) : Entry := { e with state := .cutting }

/-- The cut start (01 R16, 02 R41, 03 R62, 04 R88): the carry begins, the cut is bound, and an entry may become CUTTING. -/
def cutStart (kind : CutKind) (p : Part) : Part :=
  match p.activeSlot, p.activeRecord with
  | some i, some r =>
    let q : Part := { p with length := { p.length with carry := some { pos := 0, log := p.freshLog 0 } } }
    if r.reference = .none then
      { q with table := { q.table with
          bound := some { slot := i, kind, target := .reference p.monitor.profile p.currentDiameter } } }
    else
      match p.cutEntry r kind with
      | some e =>
        let t := q.setRecord i (some { r with entries := (changeFirst e.ident .armed Entry.toCutting r.entries).getD r.entries })
        handOver none false { t with table := { t.table with
          bound := some { slot := i, kind, target := .entry e.ident (p.takeResults kind (some e.plan)) } } }
      | none =>
        { q with table := { q.table with
            bound := some { slot := i, kind, target := .placed (p.takeResults kind none) } } }
  | _, _ => { p with table := { p.table with bound := none } }

/-! ### Cut completion (02 R43 to R49, 03 R64) -/

/-- The length unit at a completion bound to a record (03 R64): a rebase for an ACTIVE record, else the carry is discarded. -/
def rebase (active : Bool) (p : Part) : Part :=
  if active then
    match p.length.carry with
    | some c =>
      { p with
        length := { p.length with logPos := some c.pos, history := some c.log, carry := none, mirror := true }
        diameter := p.diameter.newLog }
    | none => p
  else { p with length := { p.length with carry := none } }

/-- The held results with DROPPED_DURING_CUT added for a DROPPED record (02 R49). -/
def Results.atCompletion (x : Results) (dropped : Bool) : Results :=
  { x with flags := { x.flags with droppedDuringCut := dropped } }

/-- The totals for a log recorded in an entry (01 R14). -/
def Record.countLog (r : Record) (actual : Int) : Record :=
  { r with logCount := r.logCount + 1, produced := r.produced + actual }

/-- The totals for a log sent to excess (01 R14). -/
def Record.countExcess (r : Record) (actual : Int) : Record :=
  { r.countLog actual with excessCount := r.excessCount + 1, excessLength := r.excessLength + actual }

/-- The entry that the part places for a cut no entry could take (02 R43). -/
def placedEntry (ident : Nat) (kind : CutKind) (x : Results) : Entry :=
  { ident, state := .done, results := some x
    plan := { target := x.actual, minus := 0, plus := 0, minDia := none, assort := 254
              origin := if kind = .manual then .manual else .direct } }

/-- The record after a log cut is recorded, with the outcome and index its notice reports (02 R43, R44, R45). -/
def Record.recordCut (r : Record) (kind : CutKind) : CutTarget → Record × CutOutcome × Option Nat
  | .reference _ _ => (r, .reference, none)
  | .entry ident x =>
    let x' := x.atCompletion (r.state == .dropped)
    match changeFirst ident .cutting (fun e => { e with state := .done, results := some x' }) r.entries with
    | some es => ({ r.countLog x.actual with entries := es }, .entry, indexOf ident es)
    | none => (r, .entry, none)
  | .placed x =>
    let x' := x.atCompletion (r.state == .dropped)
    if r.entries.length < listLimit then
      ({ r.countLog x.actual with
          entries := r.entries.insertIdx (afterDone r.entries) (placedEntry r.nextIdent kind x')
          nextIdent := r.nextIdent + 1
          revision := r.revision + 1 },
        .entry, some (afterDone r.entries))
    else if r.excessCount < 255 then (r.countExcess x.actual, .excess, none)
    else (r, .excessUncounted, none)

/-- The record after a reference cut (01 R12, R13; 02 R47, R49). -/
def Record.recordReference (r : Record) (profile : Profile) (diameter : Option Nat) : Record :=
  let fells := profile == .fellProcess && !r.felled
  { r with
    reference := if r.state = .active then .cut else r.reference
    felled := r.felled || fells
    stump := if fells then some (diameter.getD 0) else r.stump }

/-- The actual length and the flags of a target's results (02 R50). -/
def CutTarget.results : CutTarget → Option Results
  | .reference _ _ => none
  | .entry _ x => some x
  | .placed x => some x

/-- The CUT_DONE notice (02 R50). -/
def cutDoneNotice (stem : StemId) (b : BoundCut) (r : Record) (outcome : CutOutcome) (index : Option Nat) : Notice :=
  .cutDone stem outcome index b.kind (b.target.results.map (·.actual))
    (if outcome = .entry then b.target.results.map fun x => (x.atCompletion (r.state == .dropped)).flags else none)
    r.revision r.logCount

/-- What follows a recorded log cut in an ACTIVE record: the finish that its top waited for, or the arming test (02 R45). -/
def afterLog (i : Fin 8) (r : Record) (actual : Int) (p : Part) : Part :=
  if r.topSeen then finishTop i r (max 0 (r.held.getD 0 - actual)) p else arm i p

/-- The cut completion at the stem table and the length unit (02 R45, R47, R49; 03 R64). -/
def cutComplete (p : Part) : Part :=
  match p.table.bound with
  | none => p
  | some b =>
    match p.recordAt b.slot with
    | none => { p with table := { p.table with bound := none } }
    | some r =>
      let q := rebase (r.state == .active) p
      let unbind (x : Part) : Part := { x with table := { x.table with bound := none } }
      match b.target with
      | .reference profile diameter =>
        let r' := r.recordReference profile diameter
        let t := unbind (place (cutDoneNotice (p.stemId b.slot) b r' .reference none) (q.setRecord b.slot (some r')))
        if r.state = .active then established b.slot t else t
      | target =>
        let (r', outcome, index) := r.recordCut b.kind target
        let t := unbind (place (cutDoneNotice (p.stemId b.slot) b r' outcome index) (q.setRecord b.slot (some r')))
        if r.state = .active then afterLog b.slot r' ((target.results.map (·.actual)).getD 0) t else t

/-! ### Cut abort (02 R48, 03 R65) -/

/-- The state an entry takes when its cut aborts (02 R48). -/
def abortState (s : RecordState) : EntryState := if s = .active then .armed else .pending

/-- The abort of a cut at the stem table and the length unit: the binding and the carry end, and a CUTTING entry returns to
ARMED, handed on, or to PENDING (02 R48, 03 R65). -/
def cutAbort (p : Part) : Part :=
  let q : Part := { p with
    length := { p.length with carry := none }
    table := { p.table with bound := none } }
  match p.table.bound with
  | some { slot := i, kind := _, target := .entry ident _ } =>
    match p.recordAt i with
    | none => q
    | some r =>
      match changeFirst ident .cutting (fun e => { e with state := abortState r.state }) r.entries with
      | none => q
      | some es =>
        let t := q.setRecord i (some { r with entries := es })
        if r.state = .active then
          handOver ((findState .armed es).map (·.2)) false t
        else t
  | _ => q

end Sys2Proof.Machine
end

