-- ==== Sys2Proof/Machine/Diameter.lean ====
section
/-! DEFINITION. The diameter unit's shared operations (04): line readings and estimates, supervision, samples, the
mid-diameter crossing, drop detection and the minimum-diameter hold. -/

namespace Sys2Proof.Machine

/-! ### Lines (R77 to R81) -/

/-- LINE_ENABLE of a line. -/
def Part.lineEnabled (p : Part) (l : Line) : Bool :=
  (match l with
    | .ka => p.setting 18
    | .kb => p.setting 19
    | .rl => p.setting 20) == 1

/-- LINE_LOW of a line. -/
def Part.lineLow (p : Part) : Line → Int
  | .ka => p.setting 21
  | .kb => p.setting 22
  | .rl => p.setting 23

/-- LINE_HIGH of a line. -/
def Part.lineHigh (p : Part) : Line → Int
  | .ka => p.setting 24
  | .kb => p.setting 25
  | .rl => p.setting 26

/-- LINE_GAIN of a line, µm per count. -/
def Part.lineGain (p : Part) : Line → Int
  | .ka => p.setting 27
  | .kb => p.setting 28
  | .rl => p.setting 29

/-- LINE_OFFSET of a line, mm. -/
def Part.lineOffset (p : Part) : Line → Int
  | .ka => p.setting 30
  | .kb => p.setting 31
  | .rl => p.setting 32

/-- The present reading of a line. -/
def Part.reading (p : Part) (l : Line) : Int := (p.pins.readings[lineIdx l].toNat : Int)

/-- The kind of the reading where it is out of window: short below LINE_LOW, open above LINE_HIGH; none in window (R77). -/
def Part.outOfWindow (p : Part) (l : Line) : Option FaultKind :=
  if p.reading l < p.lineLow l then some .shorted
  else if p.lineHigh l < p.reading l then some .opened
  else none

/-- The line estimate in µm (R77). -/
def Part.estimate (p : Part) (l : Line) : Int := p.lineOffset l * 1000 + p.lineGain l * p.reading l

/-- The supervision of a line. -/
def Part.line (p : Part) (l : Line) : LineUnit := p.diameter.lines[lineIdx l]

/-- The part with the supervision of a line replaced. -/
def Part.setLine (p : Part) (l : Line) (u : LineUnit) : Part :=
  { p with diameter := { p.diameter with lines := p.diameter.lines.set (lineIdx l).val u (lineIdx l).isLt } }

/-- A line is usable: enabled, OK, and its present reading in window (R81). -/
def Part.usable (p : Part) (l : Line) : Bool :=
  p.lineEnabled l && (p.line l).state == .ok && (p.outOfWindow l).isNone

/-- A reading seen by the supervision (R78): a fresh run when it moved across the window's edge or `fresh` asks for one; the
latest out-of-window kind is kept, and a line in FAULT follows it. -/
def LineUnit.see (u : LineUnit) (fresh : Bool) (now : Option FaultKind) : LineUnit :=
  { state :=
      match u.state, now with
      | .fault _, some k => .fault k
      | s, _ => s
    run := if fresh then some 0 else u.run
    lastOut := now <|> u.lastOut }

/-- A line as every reset starts it (R78, R79): enabled QUALIFYING, disabled DISABLED, no run timed. -/
def Part.startLine (p : Part) (l : Line) : LineUnit :=
  if p.lineEnabled l then { state := .qualifying, run := none, lastOut := p.outOfWindow l }
  else { state := .disabled, run := none, lastOut := none }

/-- The three lines as every reset starts them. -/
def Part.startLines (p : Part) : Vector LineUnit 3 := #v[p.startLine .ka, p.startLine .kb, p.startLine .rl]

/-- A line's reading changes (R78). A DISABLED line times no run. -/
def lineReads (l : Line) (reading : BitVec 12) (p : Part) : Part :=
  let q : Part := { p with pins := { p.pins with
    readings := p.pins.readings.set (lineIdx l).val reading (lineIdx l).isLt } }
  if (p.line l).state = .disabled then q
  else q.setLine l ((p.line l).see ((p.outOfWindow l).isSome != (q.outOfWindow l).isSome) (q.outOfWindow l))

/-- A line goes to FAULT and LINE_FAULT is raised (R78). -/
def lineFaults (l : Line) (k : FaultKind) (p : Part) : Part :=
  raise .lineFault (p.setLine l { p.line l with state := .fault k })

/-- A reading has been out of window for 20 ms (R78). -/
def lineOutExpires (l : Line) (p : Part) : Part :=
  match (p.line l).state, p.outOfWindow l with
  | .qualifying, some k => lineFaults l k p
  | .ok, some k => lineFaults l k p
  | _, _ => p

/-- A reading has been in window for 200 ms (R78). The row for FAULT holds before READY too: a line that entered FAULT during the
start-up wait may become OK in it, and so end the wait (R80; log 38). -/
def lineInExpires (l : Line) (p : Part) : Part :=
  match (p.line l).state, p.outOfWindow l with
  | .qualifying, none => p.setLine l { p.line l with state := .ok }
  | .fault _, none => p.setLine l { p.line l with state := .ok }
  | _, _ => p

/-- A line still QUALIFYING at the start-up deadline goes to FAULT, with the kind of its latest out-of-window reading, SHORT
if it has had none (R80). -/
def lineDeadline (l : Line) (p : Part) : Part :=
  if p.lineEnabled l ∧ (p.line l).state = .qualifying then
    lineFaults l (((p.outOfWindow l) <|> (p.line l).lastOut).getD .shorted) p
  else p

/-- Every enabled line is OK (R80). -/
def Part.linesReady (p : Part) : Bool :=
  [Line.ka, .kb, .rl].all fun l => !p.lineEnabled l || (p.line l).state == .ok

/-- A write of LINE_ENABLE that changed it (R79). -/
def lineEnableWritten (l : Line) (p : Part) : Part :=
  if p.lineEnabled l then p.setLine l { state := .qualifying, run := some 0, lastOut := p.outOfWindow l }
  else p.setLine l { p.line l with state := .disabled, run := none }

/-- A write of LINE_LOW or LINE_HIGH that changed it: the present reading is classed anew and a fresh run begins (R79). -/
def lineWindowWritten (l : Line) (p : Part) : Part :=
  if (p.line l).state = .disabled then p else p.setLine l ((p.line l).see true (p.outOfWindow l))

/-! ### Samples (R82 to R86) -/

/-- Twice the knife estimate in µm: over the usable knife lines (R83). -/
def Part.knifeTwice (p : Part) : Option Int :=
  match p.usable .ka, p.usable .kb with
  | true, true => some (p.estimate .ka + p.estimate .kb)
  | true, false => some (2 * p.estimate .ka)
  | false, true => some (2 * p.estimate .kb)
  | false, false => none

/-- The RL estimate in µm (R83). -/
def Part.rlEstimate (p : Part) : Option Int := if p.usable .rl then some (p.estimate .rl) else none

/-- Four times the over-bark diameter in µm (R83), so that no mean is rounded. -/
def Part.overBark4 (p : Part) : Option Int :=
  match p.knifeTwice, p.rlEstimate with
  | some k, some r => some (k + 2 * r)
  | some k, none => some (2 * k)
  | none, some r => some (4 * r)
  | none, none => none

/-- The sample of an over-bark diameter under a species: corrected, less bark, not below 0, truncated to whole mm (R84). The
quotient is exact: a quarter µm in millionths. -/
def sampleOf (s : Species) (over4 : Int) : Nat :=
  ((over4 * (1000000 + s.diamGain) + (s.diamOffset - s.bark) * 4000000000) / 4000000000).toNat

/-- A new sample joins the end of the list; the fifth pushes the oldest out (R85). -/
def pushSample (xs : List Nat) (x : Nat) : List Nat := if xs.length < 4 then xs ++ [x] else xs.tail ++ [x]

/-- A sample is taken (R83 to R85); with no line usable it yields nothing. -/
def takeSample (p : Part) : Part :=
  match p.overBark4, p.inUse with
  | some o, some s => { p with diameter := { p.diameter with samples := pushSample p.diameter.samples (sampleOf s o) } }
  | _, _ => p

/-- The sampling distance has reached DIAMETER_INTERVAL (R82). -/
def sampleDue (p : Part) : Part :=
  match p.diameter.distance with
  | some d =>
    if p.setting 17 * 1000 ≤ (d : Int) then
      let q := takeSample p
      { q with diameter := { q.diameter with distance := some 0 } }
    else p
  | none => p

/-- The 200 ms after ATTACH STEM are over: a grip sample if none has been added yet (R82). The sampling distance, which R82
starts again where it has reached the interval, runs on through a grip sample (log 34). -/
def gripSample (p : Part) : Part :=
  if p.diameter.gripWait.isSome then
    let q : Part := { p with diameter := { p.diameter with gripWait := none } }
    if p.hasActive && p.diameter.samples.isEmpty then takeSample q else q
  else p

/-- The mid-diameter crossing: a forward count takes the position, in µm, from below half the target of the ARMED entry last
handed on to it or beyond (R89). An H kept after no ARMED entry was handed on is crossed like any other (log 32). -/
def midCross (before : Option Int) (p : Part) : Part :=
  match before, p.length.logPos, p.diameter.mid.target with
  | some b, some a, some t =>
    if b < 500 * t ∧ 500 * t ≤ a ∧ p.diameter.mid.crossed = false then
      { p with diameter := { p.diameter with mid := { p.diameter.mid with
          capture := p.currentDiameter, crossed := true } } }
    else p
  | _, _, _ => p

/-! ### Drop detection (R90) and the hold (R92) -/

/-- Twice the watched estimate in µm (R90). -/
def Part.watchedTwice (p : Part) : Option Int :=
  match p.rlEstimate with
  | some r => some (2 * r)
  | none => p.knifeTwice

/-- Whether the watched estimate lies below DROP_DIAMETER with a record ACTIVE (R90). -/
def Part.stemGone (p : Part) : Bool :=
  p.hasActive &&
    match p.watchedTwice with
    | some w => decide (w < 2000 * p.setting 33)
    | none => false

/-- The drop timer starts, runs on or is discarded (R90, R91). -/
def dropWatch (p : Part) : Part :=
  { p with diameter := { p.diameter with
    dropTimer := if p.stemGone then some (p.diameter.dropTimer.getD 0) else none } }

/-- The hold test (R92). -/
def Part.holdPasses (p : Part) : Bool :=
  match p.diameter.entry, p.currentDiameter with
  | some (some m), some d =>
    decide (d < m) && (p.feed.state == .feed || p.feed.state == .approach) && !p.diameter.hold
  | _, _ => false

/-- A hold comes into force: DIAM_REJECT is raised and the feed takes the hold (R92, 05 R120). -/
def holdComes (p : Part) : Part := feedHold (raise .diamReject { p with diameter := { p.diameter with hold := true } })

/-- The minimum-diameter watch (R92). -/
def holdTest (p : Part) : Part := if p.holdPasses then holdComes p else p

/-- ATTACH STEM at the diameter unit (R87). -/
def DiameterUnit.attach (d : DiameterUnit) : DiameterUnit :=
  { d.endPeriod with distance := some 0, gripWait := some 0 }

end Sys2Proof.Machine
end

