-- ==== Sys2Proof/Machine/Length.lean ====
section
/-! DEFINITION. The length unit's shared operations (03): counting, the selected travel and what follows it, wheel contact,
the slip window, the creep watch and the end sensor. -/

namespace Sys2Proof.Machine

/-! ### Counting (R52, R53) -/

/-- The signed raw increment of one count. -/
def signed (forward : Bool) (x : Int) : Int := if forward then x else -x

/-- One count of an encoder: the remainder carried and the increment, in millionths of a µm, move the accumulator by whole µm,
truncated toward zero, and leave the remainder (R53, log 13). -/
def Encoder.count (e : Encoder) (pitch corr : Int) (forward : Bool) : Encoder :=
  let travel := e.rem + signed forward (pitch * (1000000 + corr))
  { acc := e.acc + travel.tdiv 1000000, rem := travel.tmod 1000000 }

/-- Raw wheel travel, which saturates as the log position does (R60). -/
def LogHistory.addRaw (h : LogHistory) (x : Int) : LogHistory := { h with raw := clampPos (h.raw + x) }

/-- The selected source's travel moves the head travel counter, the log position, the carry and the sampling distance
(R52, R61, R63; 04 R82). -/
def moveSums (d : Int) (p : Part) : Part :=
  { p with
    length := { p.length with
      head := p.length.head + d
      logPos := p.length.logPos.map fun x => clampPos (x + d)
      carry := p.length.carry.map fun c => { c with pos := clampPos (c.pos + d) } }
    diameter := { p.diameter with distance := p.diameter.distance.map (· + d.natAbs) } }

/-! ### Creep (R72) -/

/-- CREEP on the log history and the carry (R72). -/
def LengthUnit.flagCreep (l : LengthUnit) : LengthUnit :=
  { l with
    history := l.history.map fun h => { h with creep := true }
    carry := l.carry.map fun c => { c with log := { c.log with creep := true } } }

/-- The creep watch, once per interval (R72). -/
def creepCheck (p : Part) : Part :=
  match p.length.creep with
  | some c =>
    if c.found = false ∧ p.speciesValue (·.creepThreshold) * 1000 < ((p.length.head - c.start).natAbs : Int) then
      raise .creep { p with length := { p.length.flagCreep with creep := some { c with found := true } } }
    else p
  | none => p

/-! ### End sensor (R73 to R75) -/

/-- The end sensor references the stem (R74). -/
def referenceStem (p : Part) : Part :=
  match p.activeSlot, p.activeRecord with
  | some i, some r =>
    if p.length.mirror = false ∧ (p.monitor.profile ≠ .fellProcess ∨ r.felled = true) ∧ p.boundTo i = false then
      let start := -(p.endOffset * 1000)
      referenceReport { p with
        length := { p.length with logPos := some start, history := some (p.freshLog start), mirror := true }
        diameter := p.diameter.newLog }
    else p
  | _, _ => p

/-- The end sensor reports the top (R75). -/
def reportTop (p : Part) : Part :=
  match p.logMm with
  | some pos => if p.referenced then topReport (pos + p.endOffset) p else p
  | none => p

/-- The end-sensor qualifier: 5 mm of travel from the noted counter qualify a pending change (R73). -/
def endQualify (p : Part) : Part :=
  match p.length.endPending with
  | none => p
  | some noted =>
    let gain := p.length.head - noted
    if 5000 ≤ gain ∨ gain ≤ -5000 then
      let q : Part := { p with length := { p.length with endPending := none, endCovered := !p.length.endCovered } }
      if p.length.endCovered = false then q
      else if 5000 ≤ gain then reportTop q
      else referenceStem q
    else p

/-- The end sensor's raw level changes (R73): a pending change is made, or the one pending is discarded. -/
def endSensorLevel (covered : Bool) (p : Part) : Part :=
  if covered = p.pins.endCovered then p
  else { p with
    pins := { p.pins with endCovered := covered }
    length := { p.length with
      endPending := if covered = p.length.endCovered then none else some p.length.head } }

/-! ### The selected travel -/

/-- The guidance tests at a count that moves the log position (08 R164). -/
def guidanceTravel (before : Option Int) (p : Part) : Part :=
  if p.length.logPos = before then p else guidanceTest p

/-- A sample that fails the minimum in the count in which the feed passes to SETTLE (04 R94): with the feed first no hold
arises; with the sample first the hold comes into force, and the feed takes it before or after its own progress (05 R120).
The order is a free value (log 31). -/
def holdMeetsStop (before : Option Int) (p : Part) : Part :=
  let q : Part := { p with draws := p.draws + 1 }
  if Config.sampleBeforeStop p.draws then
    if Config.holdBeforeStop p.draws then feedTravel before (holdComes q) else holdComes (feedTravel before q)
  else feedTravel before q

/-- The travel of a count at the feed, and a sample of this count that fails the minimum (04 R94). Where the feed does not pass to
SETTLE, the hold comes into force at the end of the event. -/
def feedTravelSampled (before : Option Int) (p : Part) : Part :=
  if p.holdPasses ∧ (feedTravel before p).feed.state = .settle then holdMeetsStop before p else feedTravel before p

/-- A count of the selected source, in the order of log 11: sums, sample, mid-diameter crossing, creep, end sensor, feed,
guidance. -/
def selectedTravel (d : Int) (p : Part) : Part :=
  let q := sampleDue (moveSums d p)
  let r := if 0 < d then midCross p.length.logPos q else q
  guidanceTravel p.length.logPos (feedTravelSampled p.length.logPos (endQualify (creepCheck r)))

/-! ### Slip window (R68 to R70) -/

/-- Whether a slip window runs: forward demand, valid wheel, a record ACTIVE (R68). -/
def Part.slipRuns (p : Part) : Bool := p.feed.state.heading == some .forward && p.wheelValid && p.hasActive

/-- The slip window opens, runs on or is discarded with its three conditions (R68). One
discarded for a pitch or correction that changes opens again at once, both sums at 0, while they hold (log 37). -/
def slipSync (p : Part) : Part :=
  { p with length := { p.length with
    slip := if p.slipRuns then some (p.length.slip.getD { wheel := 0, roller := 0 }) else none } }

/-- SLIP on the log history and the carry (R69). -/
def LengthUnit.flagSlip (l : LengthUnit) : LengthUnit :=
  { l with
    history := l.history.map fun h => { h with slip := true }
    carry := l.carry.map fun c => { c with log := { c.log with slip := true } } }

/-- The wheel becomes suspect (R70). -/
def wheelSuspect (p : Part) : Part :=
  raise .wheelSuspect (rescale p { p with length := { p.length with suspect := true } })

/-- A slip window whose wheel sum has reached 500 mm closes and its sums are compared (R68 to R70). -/
def slipClose (p : Part) : Part :=
  match p.length.slip with
  | none => p
  | some w =>
    if w.wheel < 500000 then p
    else
      let margin := p.speciesValue (·.slipTol) * 500
      let q : Part := { p with length := { p.length with slip := some { wheel := 0, roller := 0 } } }
      if margin < w.roller - w.wheel then raise .slip { q with length := q.length.flagSlip }
      else if margin < w.wheel - w.roller then wheelSuspect q
      else q

/-! ### The two encoders -/

/-- A count of the measuring wheel (R53): accumulator, raw wheel travel, slip window, the selected travel, window close. -/
def wheelCounts (forward : Bool) (p : Part) : Part :=
  let e := p.length.wheel.count p.wheelPitch p.wheelCorr forward
  let d := e.acc - p.length.wheel.acc
  let raw := signed forward p.wheelPitch
  let q : Part := { p with length := { p.length with
    wheel := e
    history := p.length.history.map (·.addRaw raw)
    carry := p.length.carry.map fun c => { c with log := c.log.addRaw raw }
    slip := p.length.slip.map fun w => { w with wheel := w.wheel + d } } }
  slipClose (if p.source = .wheel then selectedTravel d q else q)

/-- SEATING moves on with roller travel and is SEATED at 50 mm (R55). -/
def seat (d : Int) (p : Part) : Part :=
  match p.length.contact with
  | .seating x =>
    if 50000 ≤ x + d.natAbs then rescale p { p with length := { p.length with contact := .seated } }
    else { p with length := { p.length with contact := .seating (x + d.natAbs) } }
  | .lifted => p
  | .seated => p

/-- A count of the roller encoder (R53): accumulator, slip window, the selected travel, then the seating distance. -/
def rollerCounts (forward : Bool) (p : Part) : Part :=
  let e := p.length.roller.count p.rollerPitch p.rollerCorr forward
  let d := e.acc - p.length.roller.acc
  let q : Part := { p with length := { p.length with
    roller := e
    slip := p.length.slip.map fun w => { w with roller := w.roller + d } } }
  seat d (if p.source = .roller then selectedTravel d q else q)

/-- The wheel contact switch opens or closes (R55). -/
def contactLevel (closed : Bool) (p : Part) : Part :=
  if closed = p.pins.wheelClosed then p
  else rescale p { p with
    pins := { p.pins with wheelClosed := closed }
    length := { p.length with contact := if closed then .seating 0 else .lifted } }

/-- ATTACH STEM at the length unit (R66). -/
def LengthUnit.attach (l : LengthUnit) : LengthUnit :=
  { l.endPeriod with carry := none, endPending := none }

end Sys2Proof.Machine
end

