-- ==== Sys2Proof/Machine/Knife.lean ====
section
/-! DEFINITION. The knife controller (07): its state and pressure as functions of what it is handed, and its demand. -/

namespace Sys2Proof.Machine

/-- The knife state: the first row of R146 that applies. -/
def Part.knifeState (p : Part) : KnifeState :=
  if p.monitor.takeover.inForce then .yielded
  else if p.hasActive = false then .opened
  else
    match p.feed.state with
    | .recover .back => .relief
    | .recover .forward => .boost
    | .idle =>
      if (p.saw.state = .advancing ∨ p.saw.state = .manual) ∧ p.monitor.profile.works then .clamped else .opened
    | _ => .clamped

/-- The clamping pressure for the current diameter, 0 where it is absent (R148). -/
def Part.clampPressure (p : Part) : Int :=
  let raw := p.speciesValue (·.knifeBase) * 100 + p.speciesValue (·.knifeSlope) * ((p.currentDiameter.getD 0 : Nat) : Int)
  min (raw / 100) (min (p.speciesValue (·.knifeMax)) p.knifeLimit)

/-- The computed pressure of a clamping state (R148, R149). -/
def Part.computedPressure (p : Part) : KnifeState → Int
  | .relief => p.clampPressure / 2
  | .boost => min (p.clampPressure * (100 + p.setting 14) / 100) p.knifeLimit
  | _ => p.clampPressure

/-- The demanded pressure of a knife state: absent in OPEN and YIELDED; the override, limited, where it is held (R152). -/
def Part.knifePressure (p : Part) (s : KnifeState) : Option Int :=
  match s with
  | .opened => none
  | .yielded => none
  | _ => some (match p.knife.override with
      | some v => min v p.knifeLimit
      | none => p.computedPressure s)

/-- The knife controller chooses its state and pressure anew from what it is handed (R147, R150). -/
def knifeSync (p : Part) : Part :=
  { p with knife := { p.knife with state := p.knifeState, pressure := p.knifePressure p.knifeState } }

/-- The knife demand (R153). -/
def Part.knifeDemand (p : Part) : KnifeDemand :=
  match p.knife.state with
  | .opened => .opened
  | .yielded => .none
  | _ => .clamp (p.knife.pressure.getD 0)

end Sys2Proof.Machine
end

