-- ==== Sys2Proof/Machine/Saw.lean ====
section
/-! DEFINITION. The saw controller (06): cycles of the part, manual cycles, timeouts, returns and jams, and what the feed
does with a cut request (05 R104, R114). -/

namespace Sys2Proof.Machine

/-! ### States -/

/-- The saw demand (R142). -/
def Saw.demand (s : Saw) : SawDemand :=
  match s.state with
  | .parked => .none
  | .fault => .none
  | .advancing => .advance
  | .returning => .back
  | .jammed => .back
  | .manual => if (s.cycle.map (·.commanded)).getD true then .none else .back

/-- The saw becomes PARKED: the cycle record is discarded, and the feed is handed the state (R128, 05 R117). -/
def sawParks (p : Part) : Part :=
  feedSawParked { p with saw := { p.saw with state := .parked, cycle := none, cutTimer := none, returnTimer := none } }

/-- The saw becomes FAULT: the cycle record is discarded (R128, R132). -/
def sawFaults (p : Part) : Part :=
  { p with saw := { p.saw with state := .fault, cycle := none, cutTimer := none, returnTimer := none } }

/-- The saw goes to RETURNING with a cause: the cut timer stops and the return timer starts (R127, R129, R131). -/
def Saw.return_ (s : Saw) (cause : ReturnCause) : Saw :=
  { s with
    state := .returning
    cutTimer := none
    returnTimer := some 0
    cycle := s.cycle.map fun c =>
      { c with cause := some cause, completionSeen := c.completionSeen || cause == .completed } }

/-- The end of stroke in ADVANCING (R127). A home switch found closed on entry to RETURNING ends the return (R125). -/
def strokeCompletes (p : Part) : Part :=
  let q := feedCutOver (cutComplete { p with saw := p.saw.return_ .completed })
  if p.pins.homeClosed then sawParks q else q

/-- The saw advances under a cycle record and hands the cut start on; an end-of-stroke switch found closed is the end of
stroke (R125, R126, R130). -/
def sawAdvances (c : Cycle) (p : Part) : Part :=
  let q := cutStart c.kind
    { p with saw := { p.saw with state := .advancing, cycle := some c, cutTimer := some 0, returnTimer := none } }
  if p.pins.endOfStroke then strokeCompletes q else q

/-- The saw takes a cut request (R126); the feed marks it taken and a pending direct cut is consumed (05 R104). -/
def sawTakes (k : CutKind) (p : Part) : Part :=
  sawAdvances
    { owner := .part, kind := k, attempt := 1, cause := none, completionSeen := false, commanded := false, fromFault := false }
    { p with feed := { p.feed with request := .taken k, pendingDirect := false } }

/-- Whether the saw takes a request of a kind in its present state (R126). -/
def SawState.takes (s : SawState) (k : CutKind) : Bool :=
  match s with
  | .parked => true
  | .fault => k == .direct
  | .advancing => false
  | .returning => false
  | .manual => false
  | .jammed => false

/-- The feed's waiting request is offered to the saw (R126). -/
def offerRequest (p : Part) : Part :=
  match p.feed.state, p.feed.request with
  | .cutWait, .waiting k => if p.saw.state.takes k then sawTakes k p else p
  | _, _ => p

/-! ### Return, jam, timeouts -/

/-- The kind of a cut request that the saw has taken and that still stands (R130). -/
def CutRequest.standing : CutRequest → Option CutKind
  | .taken k => some k
  | .waiting _ => Option.none
  | .none => Option.none

/-- The bar home in RETURNING, by the return cause (R128, R130). -/
def returnEnds (p : Part) : Part :=
  match p.saw.cycle with
  | none => sawParks p
  | some c =>
    match c.cause with
    | some .firstTimeout =>
      match p.feed.request.standing with
      | some k => sawAdvances { c with kind := k, attempt := 2, cause := none } p
      | none => sawParks p
    | some .secondTimeout => sawFaults p
    | some .completed => sawParks p
    | none => sawParks p

/-- The bar home in JAMMED (R134). -/
def jamEnds (p : Part) : Part :=
  match p.saw.cycle.bind (·.cause) with
  | some .firstTimeout => sawFaults p
  | some .secondTimeout => sawFaults p
  | some .completed => sawParks p
  | none => sawParks p

/-- The bar home in MANUAL (R137). -/
def manualEnds (p : Part) : Part :=
  match p.saw.cycle with
  | none => sawParks p
  | some c =>
    if c.completionSeen then sawParks p
    else if c.fromFault then sawFaults (cutAbort p)
    else sawParks (cutAbort p)

/-- The first cut timeout of a cycle (R129): the feed stays in CUT_WAIT with its request taken. -/
def firstTimeout (p : Part) : Part :=
  let q := cutAbort { p with saw := p.saw.return_ .firstTimeout }
  if p.pins.homeClosed then returnEnds q else q

/-- The second cut timeout of a cycle (R131). -/
def secondTimeout (p : Part) : Part :=
  let q := feedCutOver (cutAbort (raise .sawTimeout { p with saw := p.saw.return_ .secondTimeout }))
  if p.pins.homeClosed then sawFaults q else q

/-- The cut timer runs out in ADVANCING (R129, R131). -/
def cutTimesOut (p : Part) : Part :=
  if p.saw.state = .advancing then
    if (p.saw.cycle.map (·.attempt)).getD 1 = 2 then secondTimeout p else firstTimeout p
  else p

/-- The return timer runs out in RETURNING: JAMMED, SAW_JAM, and a failed cycle for the feed where the cut never completed
(R133). -/
def returnTimesOut (p : Part) : Part :=
  if p.saw.state = .returning then
    feedCutOver (raise .sawJam { p with saw := { p.saw with state := .jammed, returnTimer := none } })
  else p

/-! ### The bar's switches -/

/-- The bar leaves home: a manual cycle from PARKED or FAULT, no effect in another state (R125, R135, R141). -/
def barLeaves (p : Part) : Part :=
  let q : Part := { p with pins := { p.pins with homeClosed := false } }
  if p.saw.state = .parked ∨ p.saw.state = .fault then
    let c : Cycle :=
      { owner := .operator, kind := .manual, attempt := 0, cause := none, completionSeen := false
        commanded := p.monitor.takeover.inForce || p.saw.expectation.isSome
        fromFault := p.saw.state == .fault }
    cutStart .manual (feedSawLeft { q with saw := { p.saw with state := .manual, cycle := some c } })
  else q

/-- The manual cycle's cut completes at its first end of stroke (R136). -/
def manualCompletes (c : Cycle) (p : Part) : Part :=
  cutComplete { p with saw := { p.saw with cycle := some { c with completionSeen := true, fromFault := false } } }

/-- The end-of-stroke switch closes (R125, R127, R136). -/
def strokeEnds (p : Part) : Part :=
  let q : Part := { p with pins := { p.pins with endOfStroke := true } }
  match p.saw.state with
  | .advancing => strokeCompletes q
  | .manual =>
    match p.saw.cycle with
    | some c => if c.completionSeen then q else manualCompletes c q
    | none => q
  | .parked => q
  | .returning => q
  | .fault => q
  | .jammed => q

/-- The home switch closes (R125, R128, R134, R137), and a waiting request is offered (R126). A bar at home has left the
end of stroke (log 16). -/
def barHomes (p : Part) : Part :=
  let q : Part := { p with pins := { p.pins with homeClosed := true, endOfStroke := false } }
  match p.saw.state with
  | .returning => offerRequest (returnEnds q)
  | .manual => offerRequest (manualEnds q)
  | .jammed => offerRequest (jamEnds q)
  | .parked => q
  | .advancing => q
  | .fault => q

/-! ### The feed asks for a cut (05 R101, R104, R114) -/

/-- The kind of the request that the feed makes (R104). -/
def Feed.requestKind (f : Feed) : CutKind := if f.pendingDirect then .direct else .automatic

/-- The feed enters CUT_WAIT and hands its request to the saw (R104). -/
def goCutWait (p : Part) : Part :=
  let q := enterFeed .cutWait p
  offerRequest { q with feed := { q.feed with request := .waiting q.feed.requestKind } }

/-- Whether the position lies beyond the held entry's window (R101). -/
def Part.beyondWindow (p : Part) : Bool :=
  match p.feed.held, p.logMm with
  | some e, some pos => decide (e.target + e.plus < pos)
  | _, _ => false

/-- CUT_WAIT out of SETTLE, with OVERSHOOT for a stem beyond the window (R101). -/
def settleCuts (p : Part) : Part := goCutWait (if p.beyondWindow then raise .overshoot p else p)

/-- The correction that a rested stem outside its window needs (R102). -/
def correctToward (h : Heading) (p : Part) : Part :=
  let q := enterFeed (.correct h) p
  { q with feed := { q.feed with corrections := q.feed.corrections + 1 } }

/-- The settle timer runs out: the window test (R101). -/
def settleEnds (p : Part) : Part :=
  if p.feed.state = .settle then
    if p.feed.pendingDirect then settleCuts p
    else
      match p.feed.held with
      | none => feedDecide p
      | some e =>
        let pos := p.logMm.getD 0
        if p.feed.cutAsLies then settleCuts p
        else if e.target - e.minus ≤ pos ∧ pos ≤ e.target + e.plus then goCutWait p
        else if p.feed.corrections < 2 then correctToward (if pos < e.target then .forward else .reverse) p
        else settleCuts p
  else p

/-- A taken CUT NOW at the feed (R113, R114). OVERSHOOT belongs to the end of a settle (R101): a feed that goes to CUT_WAIT at
once out of IDLE, GRIP or STALLED raises none (log 35). -/
def cutNow (p : Part) : Part :=
  let q : Part := { p with feed := { p.feed with pendingDirect := true, stallOut := false } }
  match p.feed.state with
  | .feed => enterFeed .settle q
  | .approach => enterFeed .settle q
  | .seek => enterFeed .settle q
  | .correct _ => enterFeed .settle q
  | .recover _ => enterFeed .settle q
  | .settle => q
  | .idle => goCutWait q
  | .grip => goCutWait q
  | .stalled => goCutWait q
  | .cutWait =>
    match p.feed.request with
    | .taken _ => q
    | _ => offerRequest { q with feed := { q.feed with request := .waiting .direct } }
  | .manual => q

end Sys2Proof.Machine
end

