-- ==== Sys2Proof/Machine/Monitor.lean ====
section
/-! DEFINITION. The takeover monitor (08): the beginning and end of a takeover, stick frames, the change of profile. -/

namespace Sys2Proof.Machine

/-- A manual cycle in progress becomes commanded (06 R141). -/
def Saw.takeCommand (s : Saw) : Saw :=
  if s.state = .manual then { s with cycle := s.cycle.map fun c => { c with commanded := true } } else s

/-- The takeover seen flag of the ACTIVE record is set (01 R21). -/
def markTakeover (p : Part) : Part :=
  match p.activeSlot with
  | some i => p.mapRecord i fun r => { r with takeoverSeen := true }
  | none => p

/-- A takeover begins, from either source (R170). -/
def takeoverBegins (t : Takeover) (p : Part) : Part :=
  let q := feedTakeover (markTakeover { p with
    monitor := { p.monitor with takeover := t }
    saw := p.saw.takeCommand })
  if p.monitor.profile.works then raise .takeover q else q

/-- A takeover ends, by its release timer or by TAKEOVER END (R171): the value becomes GRIP and the feed decides afresh. -/
def takeoverEnds (p : Part) : Part :=
  feedSetValue .grip { p with monitor := { p.monitor with takeover := .none } }

/-- The release timer of a snooped takeover runs out (R167). -/
def releaseExpires (p : Part) : Part :=
  match p.monitor.takeover with
  | .snooped _ => takeoverEnds p
  | .requested => p
  | .none => p

/-- A stick frame's image is taken: the saw's expectation, the takeover and its release timer (R165, R166, 06 R140). -/
def stickDecoded (s : StickImage) (p : Part) : Part :=
  let q : Part := { p with
    monitor := { p.monitor with stick := some s }
    saw := { p.saw with expectation := if s.sawAdvance then some 0 else p.saw.expectation } }
  if s.active then
    match p.monitor.takeover with
    | .none => takeoverBegins (.snooped 0) q
    | .snooped _ => { q with monitor := { q.monitor with takeover := .snooped 0 } }
    | .requested => q
  else q

/-- STICK_ID as an identifier. -/
def Part.stickId (p : Part) : BusId := BitVec.ofInt 11 (p.setting 37)

/-- A frame that the monitor decodes (R165, R190, R204): snooping enabled, identifier STICK_ID, link not in bus-off, no
remote frame, at least one data byte. -/
def Part.hearsStick (p : Part) (f : BusFrame) : Bool :=
  p.setting 38 == 1 && f.id == p.stickId && !f.remote && !p.link.busOff && !f.data.isEmpty

/-- A stick frame is decoded from its byte 0 alone (R204). -/
def stickArrives (f : BusFrame) (p : Part) : Part := stickDecoded (readStick (byteAt f.data 0)) p

/-- A write of SNOOP_ENABLE that changed it (R168). -/
def snoopWritten (p : Part) : Part :=
  if p.setting 38 = 1 then
    { p with monitor := { p.monitor with
      takeover := match p.monitor.takeover with
        | .requested => .snooped 0
        | t => t } }
  else
    { p with monitor := { p.monitor with
      stick := none
      takeover := match p.monitor.takeover with
        | .snooped _ => .requested
        | t => t } }

/-- The control value that a taken SET PROFILE sets (R162). -/
def Part.profileValue (p : Part) (n : Profile) : FeedValue := if n.works && p.hasActive then .grip else .idle

/-- VALVE_ID as an identifier. -/
def Part.valveId (p : Part) : BusId := BitVec.ofInt 11 (p.setting 36)

/-- The release frame of a change out of PROCESS or FELL_PROCESS, built before the profile changes (R163). -/
def releaseFrame (n : Profile) (p : Part) : Part :=
  if p.sendsValve && !n.works then
    { p with link := { p.link with valve := some { id := p.valveId, data := releaseData }, refresh := none } }
  else p

/-- A taken SET PROFILE (R162). The frame at a change into PROCESS or FELL_PROCESS is built when the event is over. -/
def profileSet (n : Profile) (p : Part) : Part :=
  let q := releaseFrame n p
  guidanceTest (feedProfile (p.profileValue n) { q with
    monitor := { q.monitor with profile := n, takeover := .none, stick := none }
    saw := { q.saw with expectation := none }
    knife := { q.knife with override := none } })

end Sys2Proof.Machine
end

