-- ==== Sys2Proof/Machine/Store.lean ====
section
/-! DEFINITION. The species and settings store (09): ranges, changes of the working copy, calibration, the stored copy. -/

namespace Sys2Proof.Machine

/-! ### Ranges (sections 9.1, 9.3) -/

/-- A number lies in a range, both ends included. -/
def within (lo hi x : Int) : Bool := decide (lo ≤ x) && decide (x ≤ hi)

/-- The lower and upper end of each setting's range (section 9.3). -/
def settingBounds : Vector (Int × Int) 40 :=
  #v[(0, 15), (50, 2000), (50, 2000), (0, 2), (0, 800), (500, 5000), (0, 1), (200, 8000), (0, 250), (0, 200),
    (50, 1000), (100, 2000), (100, 1000), (0, 5), (0, 50), (500, 10000), (300, 5000), (10, 100), (0, 1), (0, 1),
    (0, 1), (0, 4095), (0, 4095), (0, 4095), (0, 4095), (0, 4095), (0, 4095), (0, 1000), (0, 1000), (0, 1000),
    (-200, 200), (-200, 200), (-200, 200), (20, 150), (10, 100), (20, 200), (0, 0x7FF), (0, 0x7FF), (0, 1),
    (100, 2000)]

/-- A value lies in a setting's range; STICK_ID leaves out the part's own identifiers 0x5A0 to 0x5CF. -/
def settingInRange (n : Fin 40) (v : Int) : Bool :=
  within settingBounds[n].1 settingBounds[n].2 v && !(n == 37 && within 0x5A0 0x5CF v)

/-- The thirteen fields of a species record lie in their ranges (section 9.1). -/
def Species.inRange (s : Species) : Bool :=
  within (-50000) 50000 s.wheelCorr && within (-50000) 50000 s.rollerCorr && within (-100000) 100000 s.diamGain
    && within (-50) 50 s.diamOffset && within 0 40 s.bark && within 0 100 s.knifeBase && within 0 50 s.knifeSlope
    && within 10 100 s.knifeMax && within 10 100 s.feedMax && within 5 50 s.feedApproach
    && within 50 1500 s.approachDist && within 5 100 s.slipTol && within 5 200 s.creepThreshold

/-- A line's window stays a window: LINE_LOW below the same line's LINE_HIGH (04 R79, R184). -/
def Part.keepsWindow (p : Part) (n : Fin 40) (v : Int) : Bool :=
  if n = 21 then decide (v < p.setting 24)
  else if n = 22 then decide (v < p.setting 25)
  else if n = 23 then decide (v < p.setting 26)
  else if n = 24 then decide (p.setting 21 < v)
  else if n = 25 then decide (p.setting 22 < v)
  else if n = 26 then decide (p.setting 23 < v)
  else true

/-- Whether a store is in flight (R186). -/
def Part.storing (p : Part) : Bool := p.store.inFlight.isSome

/-! ### Species -/

/-- A working species record by its code. -/
def Part.species (p : Part) (c : Fin 32) : Species := p.store.working.species[c]

/-- A species record changes, with what the change means for the log and the slip window (R177, 03 R59, R68). Every other
effect of R177 is met where the value is read. -/
def setSpecies (c : Fin 32) (x : Species) (p : Part) : Part :=
  rescale p { p with store := { p.store with working := { p.store.working with
    species := p.store.working.species.set c.val x c.isLt } } }

/-- Whether a non-FREE stem record names a species (01 R6, R178). -/
def Part.named (p : Part) (c : Fin 32) : Bool :=
  slotList.any fun i =>
    match p.recordAt i with
    | some r => r.species == c
    | none => false

/-! ### Calibration (R179 to R182) -/

/-- A quotient rounded to the nearest whole number, halves away from zero, for a divisor above 0. -/
def roundDiv (a b : Int) : Int := if 0 ≤ a then (2 * a + b) / (2 * b) else -((-2 * a + b) / (2 * b))

/-- The wheel correction that makes a raw wheel length equal a true length (R180). -/
def calibratedCorr (true_ raw : Int) : Int := roundDiv ((true_ - raw) * 1000000) raw

/-- The limits of the length part (R180). -/
def corrAllowed (old new : Int) : Bool := within (-30000) 30000 (new - old) && within (-50000) 50000 new

/-- The step of the diameter part (R181). -/
def diamStep (s : Species) (true_ cut : Int) : Int := true_ - (cut + s.bark)

/-- The new DIAM_OFFSET, held within ±50 mm (R181). -/
def steppedOffset (old step : Int) : Int := max (-50) (min 50 (old + step))

/-- The tests 6 to 9 of R179 and the species that results (R180 to R182), or the refusal. -/
def calibrated (s : Species) (x : Results) (length : Option Int) (diameter : Option Nat) : AnswerCode ⊕ Species :=
  let corr := match length, x.rawWheel with
    | some l, some w => calibratedCorr l w
    | _, _ => s.wheelCorr
  let step := match diameter, x.cutDia with
    | some d, some c => diamStep s d c
    | _, _ => 0
  if length.isSome && !(match x.rawWheel with | some w => decide (100 ≤ w) | none => false) then .inl .notCalibratable
  else if diameter.isSome && x.cutDia.isNone then .inl .notCalibratable
  else if length.isSome && !corrAllowed s.wheelCorr corr then .inl .badArgument
  else if diameter.isSome && !within (-20) 20 step then .inl .badArgument
  else .inr { s with
    wheelCorr := corr
    diamOffset := if diameter.isSome then steppedOffset s.diamOffset step else s.diamOffset }

/-! ### Settings (R184) -/

/-- A setting takes a value, with what the change means for the log and the slip window (03 R58, R59, R68). -/
def setSetting (n : Fin 40) (v : Int) (p : Part) : Part :=
  rescale p { p with store := { p.store with working := { p.store.working with
    settings := p.store.working.settings.set n.val v n.isLt } } }

/-- A timer that has run a limit or longer. -/
def ran (timer : Option Nat) (limit : Int) : Bool :=
  match timer with
  | some t => decide (limit ≤ (t : Int))
  | none => false

/-- The release timer of a snooped takeover. -/
def Takeover.timer : Takeover → Option Nat
  | .snooped t => some t
  | .requested => Option.none
  | .none => Option.none

/-- What a change of a setting does at once (section 9.3): lines (04 R79), snooping (08 R168), and the timers whose limit is
read at each comparison (06 R129, R133, 08 R167; log 20). Other settings act where they are read. -/
def settingActs (n : Fin 40) (p : Part) : Part :=
  if n = 18 then lineEnableWritten .ka p
  else if n = 19 then lineEnableWritten .kb p
  else if n = 20 then lineEnableWritten .rl p
  else if n = 21 ∨ n = 24 then lineWindowWritten .ka p
  else if n = 22 ∨ n = 25 then lineWindowWritten .kb p
  else if n = 23 ∨ n = 26 then lineWindowWritten .rl p
  else if n = 15 then if ran p.saw.cutTimer (p.setting 15) then cutTimesOut p else p
  else if n = 16 then if ran p.saw.returnTimer (p.setting 16) then returnTimesOut p else p
  else if n = 38 then snoopWritten p
  else if n = 39 then if ran p.monitor.takeover.timer (p.setting 39) then releaseExpires p else p
  else p

/-- A taken WRITE SETTING; a write of the value already held is not a change (R184). -/
def writeSetting (n : Fin 40) (v : Int) (p : Part) : Part :=
  if v = p.setting n then p else settingActs n (setSetting n v p)

/-! ### The stored copy (R185, R186) -/

/-- A store that is cut off by a reset or by loss of power leaves the stored copy unsound (R185, R186). -/
def Store.cutOff (s : Store) : Store := { s with sound := s.sound && s.inFlight.isNone, inFlight := none }

/-- A store in flight completes (R186): OK leaves the stored copy sound and equal to the working copy, which has not changed
since STORE was taken; FAILED leaves it unsound and raises STORE_FAULT. -/
def storeCompletes (held : Bool) (p : Part) : Part :=
  let q := place (.storeDone held) { p with
    draws := p.draws + 1
    store := { p.store with
      stored := if held then p.store.working else p.store.stored
      sound := held
      inFlight := none } }
  if held then q else raise .storeFault q

end Sys2Proof.Machine
end

