-- ==== Sys2Proof/Machine/Link.lean ====
section
/-! DEFINITION. The link interface (10), start-up and reset (09): the end of every event, the request queue, the send list,
valve command frames, bus-off. -/

namespace Sys2Proof.Machine

/-! ### Start-up and reset (09 R187, R188) -/

/-- The node address that start-up fixes: NODE_OVERRIDE where it is 1 to 15, else the straps (R188). -/
def Part.nodeAddress (p : Part) : BitVec 4 :=
  if p.setting 0 = 0 then p.pins.straps.setWidth 4 else BitVec.ofInt 4 (p.setting 0)

/-- Every block takes its reset state over the working copy and the present pin levels, and start-up begins (R187, R188). -/
def startUp (p : Part) : Part :=
  { powered := p.powered, draws := p.draws, pins := p.pins, boot := .reset, table := .reset
    length := .reset p.pins.wheelClosed p.pins.endCovered
    diameter := .reset p.startLines
    feed := .reset
    saw := .reset p.pins.homeClosed
    knife := .reset, monitor := .reset
    store := p.store.cutOff
    link := { Link.reset p.nodeAddress (Saw.reset p.pins.homeClosed).state with lastSent := p.link.lastSent } }

/-- A RESET takes effect (R187): a normal one keeps the working copy, a factory one installs the built-in defaults. -/
def resetEffect (k : ResetKind) (p : Part) : Part :=
  startUp { p with store := { p.store with
    working := match k with
      | .normal => p.store.working
      | .factory => .builtIn } }

/-- A RESET taken during bus-off, or whose answer the entry into bus-off discards, takes effect at once (R187, R201). -/
def resetInBusOff (p : Part) : Part :=
  match p.boot.resetPending with
  | some k => if p.link.busOff then resetEffect k p else p
  | none => p

/-- The part enters READY once every enabled line is OK (R188, 04 R80). -/
def becomeReady (p : Part) : Part :=
  if !p.boot.ready && p.linesReady then { p with boot := { p.boot with ready := true, elapsed := none } } else p

/-! ### The end of an event -/

/-- The controllers place their demands in the valve demand image (R200; 05 R122, 06 R142, 07 R153). -/
def placeDemands (p : Part) : Part :=
  { p with link := { p.link with image := { feed := p.feedDemand, knife := p.knifeDemand, saw := p.saw.demand } } }

/-- A valve command frame is built from the image; it replaces one that still waits, and the refresh timer starts (R200). -/
def buildFrame (p : Part) : Part :=
  { p with link := { p.link with valve := some { id := p.valveId, data := valveData p.link.image }, refresh := some 0 } }

/-- A frame on change, or at the moment sending begins; no refresh timer where nothing is sent (R200, R201, 08 R163). -/
def valveSync (before p : Part) : Part :=
  if p.sendsValve then
    if p.link.image ≠ before.link.image ∨ before.sendsValve = false then buildFrame p else p
  else { p with link := { p.link with refresh := none } }

/-- The send list holds at most 16 frames, and none during bus-off (R194, R201). -/
def concludeList (p : Part) : Part :=
  { p with link := { p.link with sendList := if p.link.busOff then [] else p.link.sendList.take 16 } }

/-- What follows from an event once every block has taken it (log 12): a reset that bus-off releases, the hold test, the drop
timer, the slip window, READY, the knives, the demand image, the valve command frame, the send list's limit. -/
def conclude (before p : Part) : Part :=
  concludeList (valveSync before (placeDemands (knifeSync (becomeReady (slipSync (dropWatch (holdTest (resetInBusOff p))))))))

/-- An event acts on a powered part where its condition holds, and is then concluded; otherwise it changes nothing
(log 4, log 7, log 17). -/
def perform (may : Bool) (f : Part → Part) (p : Part) : Part := if p.powered && may then conclude p (f p) else p

/-- An input's level changes, which it does on an unpowered part too; a powered part acts on it. -/
def sense (f : Part → Part) (pins : Pins → Pins) (p : Part) : Part :=
  if p.powered then conclude p (f p) else { p with pins := pins p.pins }

/-! ### Taking requests (R191, R192) -/

/-- What a request comes to: the part after its effects (with the notices they give rise to), the answer code, the results
of an OK answer. -/
structure Reply where
  part : Part
  answer : AnswerCode
  results : List Byte
  deriving DecidableEq, Repr

/-- A refused request changes nothing (R193). -/
def refuse (code : AnswerCode) (p : Part) : Reply := { part := p, answer := code, results := [] }

/-- A taken request. -/
def accept (results : List Byte) (p : Part) : Reply := { part := p, answer := .ok, results }

/-- The record that a stem ID names, or the refusal NO_SUCH_STEM (01 R3). -/
def withStem (id : StemId) (p : Part) (k : Fin 8 → Record → Reply) : Reply :=
  match p.lookup id with
  | none => refuse .noSuchStem p
  | some i =>
    match p.recordAt i with
    | none => refuse .noSuchStem p
    | some r => k i r

/-- The requests of the part by their codes (11.2). -/
def requestCodes : List Byte :=
  [0x01, 0x02, 0x03, 0x04, 0x05, 0x06, 0x07, 0x08, 0x10, 0x11, 0x12, 0x13, 0x14, 0x15, 0x18, 0x19, 0x1A, 0x1B, 0x20, 0x21,
    0x22, 0x23, 0x28, 0x29, 0x2A, 0x30]

/-- The five requests that are taken in NOT_READY (09 R189). -/
def takenUnready : List Byte := [0x01, 0x02, 0x20, 0x28, 0x30]

/-- Whether the link takes requests: none once a RESET has been taken, and room for an answer on the send list (R191). -/
def Part.takesRequests (p : Part) : Bool := p.boot.resetPending.isNone && decide (p.link.sendList.length < 16)

/-- Whether the request at the head of the queue has a code. -/
def Part.headIs (p : Part) (code : Byte) : Bool :=
  match p.link.requests with
  | (c :: _ :: _) :: _ => c == code
  | _ => false

/-- Whether the request at the head of the queue fails the first two tests of R192. -/
def Part.headBad (p : Part) : Bool :=
  match p.link.requests with
  | (c :: _ :: _) :: _ => !requestCodes.contains c
  | _ :: _ => true
  | [] => false

/-- The answer goes to the end of the send list, the notices of the request's own effects after it (R194). -/
def answered (old : List SendItem) (a : Answer) (p : Part) : Part :=
  { p with link := { p.link with sendList := old ++ .answer a :: p.link.sendList } }

/-- The answer of a reply, with results for OK only (R193). -/
def Reply.toAnswer (r : Reply) (code tag : Byte) : Answer :=
  { code, tag, answer := r.answer, results := if r.answer = .ok then r.results else [] }

/-- Screening (R192, tests 3 and 4), then the owner's handler. `need` is the length of the arguments. -/
def screen (code : Byte) (need : List Byte → Nat) (handler : List Byte → Part → Reply) (args : List Byte) (p : Part) : Reply :=
  if args.length < need args then refuse .badRequest p
  else if !p.boot.ready && !takenUnready.contains code then refuse .notReady p
  else handler args p

/-- The request at the head of the queue is taken (R191): it leaves the queue, is screened and handled, and is answered. -/
def serve (need : List Byte → Nat) (handler : List Byte → Part → Reply) (p : Part) : Part :=
  match p.link.requests with
  | (code :: tag :: args) :: rest =>
    let r := screen code need handler args { p with link := { p.link with requests := rest, sendList := [] } }
    answered p.link.sendList (r.toAnswer code tag) r.part
  | _ => p

/-- A request's row acts where the link takes requests and the request at the head of the queue is of its code (log 6). -/
def request (code : Byte) (need : List Byte → Nat) (handler : List Byte → Part → Reply) (p : Part) : Part :=
  perform (p.takesRequests && p.headIs code) (serve need handler) p

/-- A frame too short for a code and a tag is answered under code 0 and tag 0, an unknown code is echoed (R192). -/
def serveBad (p : Part) : Part :=
  match p.link.requests with
  | bs :: rest =>
    let a : Answer :=
      { code := if bs.length < 2 then 0 else byteAt bs 0
        tag := if bs.length < 2 then 0 else byteAt bs 1
        answer := .badRequest, results := [] }
    answered p.link.sendList a { p with link := { p.link with requests := rest, sendList := [] } }
  | [] => p

/-- Whether a frame arrives as a request: the request identifier of the node address in use, no remote frame, not in bus-off
(R190, R201). -/
def Part.hearsRequest (p : Part) (f : BusFrame) : Bool := f.id == requestId p.link.node && !f.remote && !p.link.busOff

/-- A request arrives (R191): it joins the queue, or it is discarded with OVERRUN where the queue holds 4. -/
def requestArrives (f : BusFrame) (p : Part) : Part :=
  if 4 ≤ p.link.requests.length then raise .overrun p
  else { p with link := { p.link with requests := p.link.requests ++ [f.data] } }

/-! ### Sending (R194, R201) -/

/-- The waiting valve command frame went to the bus without error. -/
def valveSent (v : OutFrame) (p : Part) : Part :=
  { p with link := { p.link with valve := none, errors := p.link.errors - 1, lastSent := some v } }

/-- Whether an element of the send list is the answer to a taken RESET. -/
def SendItem.isResetAnswer : SendItem → Bool
  | .answer a => a.code == 0x30 && a.answer == .ok
  | .notice _ => false

/-- The head of the send list went to the bus without error and leaves the list; a RESET takes effect once its own answer has
left it (R194, 09 R187). -/
def itemSent (i : SendItem) (rest : List SendItem) (p : Part) : Part :=
  let q : Part := { p with link := { p.link with
    sendList := rest, errors := p.link.errors - 1, lastSent := some (i.frame p.link.node) } }
  match p.boot.resetPending with
  | some k => if i.isResetAnswer then resetEffect k q else q
  | none => q

/-- Whether a frame waits to be sent. -/
def Part.sending (p : Part) : Bool := p.link.valve.isSome || !p.link.sendList.isEmpty

/-- A frame went to the bus without error (R194, R201): the lower identifier goes first; of equal ones, the one that the free
value names (log 14). -/
def frameSent (p : Part) : Part :=
  match p.link.valve, p.link.sendList with
  | none, [] => p
  | some v, [] => valveSent v p
  | none, i :: rest => itemSent i rest p
  | some v, i :: rest =>
    if v.id < (i.frame p.link.node).id then valveSent v p
    else if (i.frame p.link.node).id < v.id then itemSent i rest p
    else
      let q : Part := { p with draws := p.draws + 1 }
      if Config.equalIdValveFirst p.draws then valveSent v q else itemSent i rest q

/-- The entry into bus-off (R201, 05 R95). -/
def enterBusOff (p : Part) : Part :=
  feedSetValue .grip { p with link := { p.link with sendList := [], valve := none, refresh := none, busOff := true } }

/-- A frame the part sends meets a bus error (R201). -/
def transmitFails (p : Part) : Part :=
  let q : Part := { p with link := { p.link with errors := p.link.errors + 8 } }
  if 255 < q.link.errors then enterBusOff q else q

/-- The link leaves bus-off (R201). The valve command frame is built when the event is over (`valveSync`). -/
def leaveBusOff (p : Part) : Part := { p with link := { p.link with busOff := false, errors := 0 } }

/-! ### Power and the start-up deadline -/

/-- Power is applied (R188): the stored copy is loaded if sound, else the built-in defaults are installed and STORE_FAULT is
raised once the address is fixed. On a powered part this is a power cycle (log 7). -/
def powerUp (straps : BitVec 2) (p : Part) : Part :=
  let s := p.store.cutOff
  let q := startUp { p with
    powered := true
    pins := { p.pins with straps }
    store := { s with working := if s.sound then s.stored else .builtIn }
    link := { p.link with lastSent := none } }
  conclude p (if s.sound then q else raise .storeFault q)

/-- Power is lost (R186): the part stops, and a store in flight is cut off. -/
def powerDown (p : Part) : Part := { p with powered := false, store := p.store.cutOff }

/-- The 2,000 ms of start-up are over (04 R80): lines still QUALIFYING go to FAULT, and the part enters READY. -/
def deadlinePasses (p : Part) : Part :=
  let q := lineDeadline .rl (lineDeadline .kb (lineDeadline .ka p))
  { q with boot := { q.boot with ready := true, elapsed := none } }

end Sys2Proof.Machine
end

