-- ==== Sys2Proof/Machine/HeadRequests.lean ====
section
/-! DEFINITION. The requests on the head as a whole: BAD_REQUEST, STATUS, READ CONDITIONS, SET MASKS, SET PROFILE, SET FEED,
KNIFE OVERRIDE, TAKEOVER, CUT NOW. Each handler is the owner's tests and effects; each meaning takes the request. -/

namespace Sys2Proof.Machine

/-- The outcome of a command that changes the part by `f`. No command stops the part (log 25). -/
def State.on (s : State) (f : Part → Part) : Host.Outcome State Fault Refusal := .next { s with part := f s.part }

/-- BAD_REQUEST (10 R192): a frame too short for a code and tag, or of an unknown code, is taken and answered. -/
def execBadRequest (s : State) : Host.Outcome State Fault Refusal :=
  s.on fun p => perform (p.takesRequests && p.headBad) serveBad p

/-- STATUS (10 R198). -/
def doStatus (_args : List Byte) (p : Part) : Reply := accept (statusImage p) p

/-- STATUS. -/
def execStatus (s : State) : Host.Outcome State Fault Refusal := s.on (request 0x01 (fun _ => 0) doStatus)

/-- READ CONDITIONS (10 R196). -/
def doReadConditions (args : List Byte) (p : Part) : Reply :=
  accept (word16 p.link.conditions) (clearConditions (readWord args 0) p)

/-- READ_CONDITIONS. -/
def execReadConditions (s : State) : Host.Outcome State Fault Refusal := s.on (request 0x02 (fun _ => 2) doReadConditions)

/-- SET MASKS (10 R197). -/
def doSetMasks (args : List Byte) (p : Part) : Reply :=
  accept (word16 (readWord args 0)) { p with link := { p.link with mask := readWord args 0 } }

/-- SET_MASKS. -/
def execSetMasks (s : State) : Host.Outcome State Fault Refusal := s.on (request 0x03 (fun _ => 2) doSetMasks)

/-- SET PROFILE (08 R161, R162). -/
def doSetProfile (args : List Byte) (p : Part) : Reply :=
  match Profile.ofCode (readU8 args 0) with
  | none => refuse .badArgument p
  | some n =>
    if p.saw.state ≠ .parked then refuse .busy p
    else if n = .off ∧ p.hasActive then refuse .inHead p
    else accept ([n.code, (p.profileValue n).code] ++ yesNo p.monitor.takeover.inForce) (profileSet n p)

/-- SET_PROFILE. -/
def execSetProfile (s : State) : Host.Outcome State Fault Refusal := s.on (request 0x04 (fun _ => 1) doSetProfile)

/-- SET FEED (05 R96). -/
def doSetFeed (args : List Byte) (p : Part) : Reply :=
  match FeedValue.ofCode (readU8 args 0) with
  | none => refuse .badArgument p
  | some v =>
    if p.monitor.profile.works = false then refuse .wrongState p
    else if p.hasActive = false then refuse .noSuchStem p
    else accept [] (feedSetValue v p)

/-- SET_FEED. -/
def execSetFeed (s : State) : Host.Outcome State Fault Refusal := s.on (request 0x05 (fun _ => 1) doSetFeed)

/-- The knife override takes a value or is cleared, and the pressure is recomputed (07 R150, R151). -/
def setOverride (v : Option Int) (p : Part) : Part := knifeSync { p with knife := { p.knife with override := v } }

/-- The results of KNIFE OVERRIDE: the override held, the knife state, the demanded pressure (07 R151). -/
def knifeResults (p : Part) : List Byte := optU8 p.knife.override ++ [p.knife.state.code] ++ optU8 p.knife.pressure

/-- KNIFE OVERRIDE (07 R151). -/
def doKnifeOverride (args : List Byte) (p : Part) : Reply :=
  if readU8 args 0 = 0xFF then accept (knifeResults (setOverride none p)) (setOverride none p)
  else if 100 < readU8 args 0 then refuse .badArgument p
  else accept (knifeResults (setOverride (some (readU8 args 0)) p)) (setOverride (some (readU8 args 0)) p)

/-- KNIFE_OVERRIDE. -/
def execKnifeOverride (s : State) : Host.Outcome State Fault Refusal := s.on (request 0x06 (fun _ => 1) doKnifeOverride)

/-- The code of a takeover's source, absent with no takeover in force (11.1, 11.2). -/
def Takeover.sourceCode : Takeover → Byte
  | .none => 0xFF
  | .snooped _ => 0
  | .requested => 1

/-- The results of TAKEOVER: in force or not, its source, the stick image (08 R169). -/
def takeoverResults (p : Part) : List Byte :=
  yesNo p.monitor.takeover.inForce ++ [p.monitor.takeover.sourceCode, stickByte p.monitor.stick]

/-- TAKEOVER BEGIN, tests passed: with a takeover in force it changes nothing (08 R169). -/
def takeoverRequested (p : Part) : Part := if p.monitor.takeover.inForce then p else takeoverBegins .requested p

/-- TAKEOVER END, tests passed: with no takeover in force it changes nothing (08 R169). -/
def takeoverReleased (p : Part) : Part := if p.monitor.takeover.inForce then takeoverEnds p else p

/-- TAKEOVER (08 R169). -/
def doTakeover (args : List Byte) (p : Part) : Reply :=
  if 1 < readU8 args 0 then refuse .badArgument p
  else if p.setting 38 = 1 then refuse .wrongState p
  else if readU8 args 0 = 0 then accept (takeoverResults (takeoverRequested p)) (takeoverRequested p)
  else accept (takeoverResults (takeoverReleased p)) (takeoverReleased p)

/-- TAKEOVER. -/
def execTakeover (s : State) : Host.Outcome State Fault Refusal := s.on (request 0x07 (fun _ => 1) doTakeover)

/-- The saw states in which CUT NOW is refused BUSY (05 R113, test 4). -/
def SawState.refusesCut : SawState → Bool
  | .parked => false
  | .fault => false
  | .advancing => true
  | .returning => true
  | .manual => true
  | .jammed => true

/-- CUT NOW (05 R113, R114). -/
def doCutNow (_args : List Byte) (p : Part) : Reply :=
  if p.monitor.profile.works = false then refuse .wrongState p
  else if p.hasActive = false then refuse .noSuchStem p
  else if p.monitor.takeover.inForce then refuse .wrongState p
  else if p.saw.state.refusesCut then refuse .busy p
  else if p.feed.pendingDirect then refuse .busy p
  else accept [] (cutNow p)

/-- CUT_NOW. -/
def execCutNow (s : State) : Host.Outcome State Fault Refusal := s.on (request 0x08 (fun _ => 0) doCutNow)

end Sys2Proof.Machine
end

