-- ==== Sys2Proof/Machine/StemRequests.lean ====
section
/-! DEFINITION. The requests on whole records (01): OPEN STEM, ATTACH STEM, FINISH STEM, RETIRE STEM, READ STEM. -/

namespace Sys2Proof.Machine

/-- The planned fields of an entry that the cabin computer places lie in their ranges (02 R29, test 4b). -/
def Planned.allowed (e : Planned) : Bool :=
  within 200 8000 e.target && decide (e.minus ≤ 250) && decide (e.plus ≤ 250)
    && (match e.minDia with
        | none => true
        | some d => decide (30 ≤ d) && decide (d ≤ 800))
    && decide (e.assort ≤ 253)

/-- The species record of a code is valid; a code above 31 names none (01 R4, test 1). -/
def Part.validSpecies (p : Part) (code : Nat) : Option (Fin 32) :=
  if h : code < 32 then if (p.species ⟨code, h⟩).valid then some ⟨code, h⟩ else none else none

/-- The lowest-numbered FREE slot (01 R4). -/
def Part.freeSlot (p : Part) : Option (Fin 8) := slotList.find? fun i => (p.recordAt i).isNone

/-- The inline entries of OPEN STEM (11 R203). -/
def inlinePlans (args : List Byte) (count : Nat) : List Planned := (List.range count).map fun k => readPlanned args (2 + 9 * k)

/-- A record as OPEN STEM makes it (01 R5). -/
def Record.fresh (species : Fin 32) (plans : List Planned) : Record :=
  { state := .opened, species, reference := .none, felled := false, stump := none, revision := 0
    entries := plans.mapIdx fun k plan => { ident := k, state := .pending, plan, results := none }
    nextIdent := plans.length
    logCount := 0, produced := 0, excessCount := 0, excessLength := 0, topRemnant := none, topSeen := false, held := none
    dropCount := 0, takeoverSeen := false }

/-- The length of OPEN STEM's arguments: as many planned images as the count announces, up to four (11 R203). -/
def openNeed (args : List Byte) : Nat := 2 + 9 * min (readU8 args 1) 4

/-- OPEN STEM (01 R4, R5). -/
def doOpenStem (args : List Byte) (p : Part) : Reply :=
  match p.validSpecies (readU8 args 0) with
  | none => refuse .badArgument p
  | some c =>
    if 4 < readU8 args 1 then refuse .badArgument p
    else if (inlinePlans args (readU8 args 1)).all Planned.allowed = false then refuse .badArgument p
    else
      match p.freeSlot with
      | none => refuse .tableFull p
      | some i =>
        accept (stemBytes (p.stemId i)) (p.setRecord i (some (Record.fresh c (inlinePlans args (readU8 args 1)))))

/-- OPEN_STEM. -/
def execOpenStem (s : State) : Host.Outcome State Fault Refusal := s.on (request 0x10 openNeed doOpenStem)

/-- A record at ATTACH STEM (01 R7, R20). -/
def Record.attach (r : Record) : Record := { r with state := .active, reference := .none, topSeen := false, held := none }

/-- The attach event (01 R8): the length, diameter and feed blocks and the guidance take it, and the arming test runs. The
knives follow from the feed and the record (07 R147). -/
def attachStem (i : Fin 8) (r : Record) (p : Part) : Part :=
  let q := p.setRecord i (some r.attach)
  arm i (feedAttach { q with
    length := q.length.attach
    diameter := q.diameter.attach
    monitor := { q.monitor with guidance := .reset } })

/-- ATTACH STEM (01 R7, R8). -/
def doAttachStem (args : List Byte) (p : Part) : Reply :=
  withStem (readStem args) p fun i r =>
    if p.monitor.profile = .off then refuse .wrongState p
    else if r.state = .active ∨ r.state = .finished then refuse .wrongState p
    else if p.boundTo i then refuse .busy p
    else if p.hasActive then refuse .headOccupied p
    else accept [] (attachStem i r p)

/-- ATTACH_STEM. -/
def execAttachStem (s : State) : Host.Outcome State Fault Refusal := s.on (request 0x11 (fun _ => 2) doAttachStem)

/-- A taken FINISH STEM; the finish event is handed on for an ACTIVE record only (01 R9). -/
def finishStem (i : Fin 8) (r : Record) (p : Part) : Part :=
  let q := p.setRecord i (some r.finish)
  if r.state = .active then endPeriod q else q

/-- FINISH STEM (01 R9). -/
def doFinishStem (args : List Byte) (p : Part) : Reply :=
  withStem (readStem args) p fun i r =>
    if r.state = .opened ∨ r.state = .finished then refuse .wrongState p
    else if p.boundTo i then refuse .busy p
    else accept [] (finishStem i r p)

/-- FINISH_STEM. -/
def execFinishStem (s : State) : Host.Outcome State Fault Refusal := s.on (request 0x12 (fun _ => 2) doFinishStem)

/-- A taken RETIRE STEM: the slot is FREE and its generation moves on, from 255 to 0 (01 R2, R10). -/
def retireStem (i : Fin 8) (p : Part) : Part :=
  { p with table := { p.table with
    slots := p.table.slots.set i.val { generation := p.table.slots[i].generation + 1, record := none } i.isLt } }

/-- RETIRE STEM (01 R10). -/
def doRetireStem (args : List Byte) (p : Part) : Reply :=
  withStem (readStem args) p fun i r =>
    if r.state = .active then refuse .inHead p
    else if p.boundTo i then refuse .busy p
    else accept [] (retireStem i p)

/-- RETIRE_STEM. -/
def execRetireStem (s : State) : Host.Outcome State Fault Refusal := s.on (request 0x13 (fun _ => 2) doRetireStem)

/-- The log position that a record's header lends (01 R17). -/
def Part.lentPosition (p : Part) (r : Record) : Option Int := if r.state = .active ∧ r.established then p.logMm else none

/-- The current diameter that a record's header lends (01 R17). -/
def Part.lentDiameter (p : Part) (r : Record) : Option Nat := if r.state = .active then p.currentDiameter else none

/-- READ STEM (01 R11). -/
def doReadStem (args : List Byte) (p : Part) : Reply :=
  withStem (readStem args) p fun i r =>
    accept (stemHeaderImage (p.stemId i) r (p.lentPosition r) (p.lentDiameter r)) p

/-- READ_STEM. -/
def execReadStem (s : State) : Host.Outcome State Fault Refusal := s.on (request 0x14 (fun _ => 2) doReadStem)

end Sys2Proof.Machine
end

