-- ==== Sys2Proof/Machine/PlanRequests.lean ====
section
/-! DEFINITION. The requests on cut lists (02): READ ENTRIES, APPEND ENTRY, INSERT ENTRY, CHANGE ENTRY, CANCEL ENTRY. -/

namespace Sys2Proof.Machine

/-! ### READ ENTRIES -/

/-- The images of a run of entries, from an index on (11 R203). -/
def entryImages (index : Nat) : List Entry → List Byte
  | [] => []
  | e :: es => entryImage index e ++ entryImages (index + 1) es

/-- READ ENTRIES (02 R36). The start index is tested before the count, so that a record with no entry answers every one with
NO_SUCH_ENTRY (log 33). -/
def doReadEntries (args : List Byte) (p : Part) : Reply :=
  withStem (readStem args) p fun _ r =>
    let start := readU8 args 2
    let count := readU8 args 3
    let run := (r.entries.drop start).take count
    if r.entries.length ≤ start then refuse .noSuchEntry p
    else if count = 0 ∨ 2 < count then refuse .badArgument p
    else accept (word16 r.revision ++ u8 r.entries.length ++ u8 run.length ++ entryImages start run) p

/-- READ_ENTRIES. -/
def execReadEntries (s : State) : Host.Outcome State Fault Refusal := s.on (request 0x15 (fun _ => 4) doReadEntries)

/-! ### Tests and answers of amendments (R29, R30) -/

/-- The state of the entry at an index, where it is ARMED or PENDING (R29, test 4a). -/
def Record.reach (r : Record) (index : Nat) : Option Entry :=
  match r.entries[index]? with
  | some e => if e.state = .armed ∨ e.state = .pending then some e else none
  | none => none

/-- The lateness test refuses an amendment with a resulting target, if it has one (R30). -/
def Part.tooLate (p : Part) (target : Option Int) : Bool :=
  match p.feed.state with
  | .approach => true
  | .settle => true
  | .correct _ => true
  | .cutWait => true
  | .feed =>
    match target with
    | some t => decide (t - p.speciesValue (·.approachDist) ≤ p.logMm.getD 0)
    | none => false
  | .idle => false
  | .grip => false
  | .seek => false
  | .recover _ => false
  | .stalled => false
  | .manual => false

/-- The amendment result: revision, entry count, index, entry state (11.2), all after the whole step (log 29). -/
def amendmentResult (p : Part) (i : Fin 8) (index : Nat) (removed : Bool) : List Byte :=
  match p.recordAt i with
  | none => []
  | some r =>
    word16 r.revision ++ u8 r.entries.length ++ u8 index
      ++ [if removed then 0xFF else (r.entries[index]?.map fun e => e.state.code).getD 0xFF]

/-- The answer of a taken amendment. -/
def amended (i : Fin 8) (index : Nat) (removed : Bool) (p : Part) : Reply := accept (amendmentResult p i index removed) p

/-! ### APPEND ENTRY -/

/-- A taken APPEND ENTRY: the new entry, then an arming occasion (R31). -/
def appendTaken (i : Fin 8) (r : Record) (plan : Planned) (p : Part) : Part :=
  arm i (p.setRecord i (some (r.appendEntry .pending plan)))

/-- APPEND ENTRY (R29, R31). -/
def doAppendEntry (args : List Byte) (p : Part) : Reply :=
  withStem (readStem args) p fun i r =>
    let plan := readPlanned args 4
    if r.state = .finished then refuse .wrongState p
    else if readWord args 2 ≠ r.revision then refuse .staleRevision p
    else if plan.allowed = false then refuse .badArgument p
    else if listLimit ≤ r.entries.length then refuse .planFull p
    else amended i r.entries.length false (appendTaken i r plan p)

/-- APPEND_ENTRY. -/
def execAppendEntry (s : State) : Host.Outcome State Fault Refusal := s.on (request 0x18 (fun _ => 13) doAppendEntry)

/-! ### INSERT ENTRY -/

/-- A new entry at an index, ARMED in place of an ARMED entry that returns to PENDING, else PENDING (R32). -/
def Record.insertEntry (r : Record) (index : Nat) (st : EntryState) (plan : Planned) : Record :=
  { r with
    entries := (if st = .armed then r.entries.map disarmEntry else r.entries).insertIdx index
      { ident := r.nextIdent, state := st, plan, results := none }
    nextIdent := r.nextIdent + 1
    revision := r.revision + 1 }

/-- A taken INSERT ENTRY: an insertion ahead of the ARMED entry is handed on; the insert is an arming occasion (R32, R38). -/
def insertTaken (i : Fin 8) (r : Record) (index : Nat) (st : EntryState) (plan : Planned) (p : Part) : Part :=
  let q := p.setRecord i (some (r.insertEntry index st plan))
  arm i (if st = .armed then handOver (some { ident := r.nextIdent, state := .armed, plan, results := none }) true q else q)

/-- The state a new entry takes at an index (R32); none where the index may not be named (R29, test 4a). -/
def Record.insertState (r : Record) (index : Nat) : Option EntryState :=
  if index = r.entries.length then some .pending else (r.reach index).map (·.state)

/-- INSERT ENTRY (R29, R32). -/
def doInsertEntry (args : List Byte) (p : Part) : Reply :=
  withStem (readStem args) p fun i r =>
    let index := readU8 args 4
    let plan := readPlanned args 5
    if r.state = .finished then refuse .wrongState p
    else if readWord args 2 ≠ r.revision then refuse .staleRevision p
    else
      match r.insertState index with
      | none => refuse .badArgument p
      | some st =>
        if plan.allowed = false then refuse .badArgument p
        else if listLimit ≤ r.entries.length then refuse .planFull p
        else if st = .armed ∧ p.tooLate (some plan.target) then refuse .tooLate p
        else amended i index false (insertTaken i r index st plan p)

/-- INSERT_ENTRY. -/
def execInsertEntry (s : State) : Host.Outcome State Fault Refusal := s.on (request 0x19 (fun _ => 14) doInsertEntry)

/-! ### CHANGE ENTRY -/

/-- The planned fields of an entry are replaced, its origin becomes PLAN (R33). -/
def Record.changeEntry (r : Record) (index : Nat) (plan : Planned) : Record :=
  { r with entries := r.entries.modify index fun e => { e with plan }, revision := r.revision + 1 }

/-- A taken CHANGE ENTRY; a changed ARMED entry is handed on (R33, R38). -/
def changeTaken (i : Fin 8) (r : Record) (index : Nat) (e : Entry) (plan : Planned) (p : Part) : Part :=
  let q := p.setRecord i (some (r.changeEntry index plan))
  if e.state = .armed then handOver (some { e with plan }) true q else q

/-- CHANGE ENTRY (R29, R33). -/
def doChangeEntry (args : List Byte) (p : Part) : Reply :=
  withStem (readStem args) p fun i r =>
    let index := readU8 args 4
    let plan := readPlanned args 5
    if r.state = .finished then refuse .wrongState p
    else if readWord args 2 ≠ r.revision then refuse .staleRevision p
    else
      match r.reach index with
      | none => refuse .noSuchEntry p
      | some e =>
        if plan.allowed = false then refuse .badArgument p
        else if e.state = .armed ∧ p.tooLate (some plan.target) then refuse .tooLate p
        else amended i index false (changeTaken i r index e plan p)

/-- CHANGE_ENTRY. -/
def execChangeEntry (s : State) : Host.Outcome State Fault Refusal := s.on (request 0x1A (fun _ => 14) doChangeEntry)

/-! ### CANCEL ENTRY -/

/-- An entry leaves the list (R34). -/
def Record.cancelEntry (r : Record) (index : Nat) : Record :=
  { r with entries := r.entries.eraseIdx index, revision := r.revision + 1 }

/-- The target that the feed would next work toward after a cancel of the ARMED entry (R30). -/
def Record.nextTarget (r : Record) (index : Nat) : Option Int :=
  if r.topSeen then none else (findState .pending (r.entries.drop (index + 1))).map fun x => x.2.plan.target

/-- A taken CANCEL ENTRY. A cancel of the ARMED entry is an arming occasion; what it comes to is handed on, and so is that
nothing is armed (R34, R38). That the record has no ARMED entry for a moment is not handed on by itself where another is armed in
the same step: a RECOVER goes on with the new entry (05 R116; log 39). -/
def cancelTaken (i : Fin 8) (r : Record) (index : Nat) (e : Entry) (p : Part) : Part :=
  if e.state = .armed then
    match p.armingTest (r.cancelEntry index) with
    | (r', .nothing) => handOver none false (p.setRecord i (some r'))
    | (r', a) => armingHands a (p.setRecord i (some r'))
  else p.setRecord i (some (r.cancelEntry index))

/-- CANCEL ENTRY (R29, R34). -/
def doCancelEntry (args : List Byte) (p : Part) : Reply :=
  withStem (readStem args) p fun i r =>
    let index := readU8 args 4
    if r.state = .finished then refuse .wrongState p
    else if readWord args 2 ≠ r.revision then refuse .staleRevision p
    else
      match r.reach index with
      | none => refuse .noSuchEntry p
      | some e =>
        if e.state = .armed ∧ p.tooLate (r.nextTarget index) then refuse .tooLate p
        else amended i index true (cancelTaken i r index e p)

/-- CANCEL_ENTRY. -/
def execCancelEntry (s : State) : Host.Outcome State Fault Refusal := s.on (request 0x1B (fun _ => 5) doCancelEntry)

end Sys2Proof.Machine
end

