-- ==== Sys2Proof/Machine/StoreRequests.lean ====
section
/-! DEFINITION. The requests on species, settings and the stored copy (09), RESET, and STORE_COMPLETION. -/

namespace Sys2Proof.Machine

/-! ### Species -/

/-- A species code 0 to 31. -/
def speciesCode (n : Nat) : Option (Fin 32) := if h : n < 32 then some ⟨n, h⟩ else none

/-- READ SPECIES (R175). -/
def doReadSpecies (args : List Byte) (p : Part) : Reply :=
  match speciesCode (readU8 args 0) with
  | none => refuse .badArgument p
  | some c =>
    accept (u8 c.val ++ yesNo (p.species c).valid ++ yesNo (p.named c) ++ speciesImage (p.species c)) p

/-- READ_SPECIES. -/
def execReadSpecies (s : State) : Host.Outcome State Fault Refusal := s.on (request 0x20 (fun _ => 1) doReadSpecies)

/-- WRITE SPECIES (R176, R177). -/
def doWriteSpecies (args : List Byte) (p : Part) : Reply :=
  match speciesCode (readU8 args 0) with
  | none => refuse .badArgument p
  | some c =>
    if (readSpeciesImage args 1).inRange = false then refuse .badArgument p
    else if p.storing then refuse .busy p
    else accept (u8 c.val) (setSpecies c (readSpeciesImage args 1) p)

/-- WRITE_SPECIES. -/
def execWriteSpecies (s : State) : Host.Outcome State Fault Refusal := s.on (request 0x21 (fun _ => 24) doWriteSpecies)

/-- CLEAR SPECIES (R178). -/
def doClearSpecies (args : List Byte) (p : Part) : Reply :=
  match speciesCode (readU8 args 0) with
  | none => refuse .badArgument p
  | some c =>
    if p.storing then refuse .busy p
    else if p.named c then refuse .inUse p
    else accept [] (setSpecies c (Species.builtIn false) p)

/-- CLEAR_SPECIES. -/
def execClearSpecies (s : State) : Host.Outcome State Fault Refusal := s.on (request 0x22 (fun _ => 1) doClearSpecies)

/-- A true length and a true diameter as CALIBRATE takes them: at least one given, each within its range (R179, test 3). -/
def truthsAllowed (length : Option Int) (diameter : Option Nat) : Bool :=
  (length.isSome || diameter.isSome)
    && (match length with
        | some l => within 100 40000 l
        | none => true)
    && (match diameter with
        | some d => decide (d ≤ 1500)
        | none => true)

/-- CALIBRATE's results: WHEEL_CORR and DIAM_OFFSET before and after (R182, 11.2). -/
def calibrateResults (old new : Species) : List Byte :=
  i32 old.wheelCorr ++ i32 new.wheelCorr ++ u8 old.diamOffset ++ u8 new.diamOffset

/-- CALIBRATE on a DONE entry's results (R179, tests 6 to 9; R182). -/
def calibrateEntry (r : Record) (x : Results) (length : Option Int) (diameter : Option Nat) (p : Part) : Reply :=
  match calibrated (p.species r.species) x length diameter with
  | .inl code => refuse code p
  | .inr new => accept (calibrateResults (p.species r.species) new) (setSpecies r.species new p)

/-- CALIBRATE (R179). -/
def doCalibrate (args : List Byte) (p : Part) : Reply :=
  withStem (readStem args) p fun _ r =>
    match r.entries[readU8 args 2]? with
    | none => refuse .noSuchEntry p
    | some e =>
      if truthsAllowed (readOptI32 args 3) (readOptU16 args 7) = false then refuse .badArgument p
      else if p.storing then refuse .busy p
      else
        match e.state, e.results with
        | .done, some x => calibrateEntry r x (readOptI32 args 3) (readOptU16 args 7) p
        | _, _ => refuse .notCalibratable p

/-- CALIBRATE. -/
def execCalibrate (s : State) : Host.Outcome State Fault Refusal := s.on (request 0x23 (fun _ => 9) doCalibrate)

/-! ### Settings -/

/-- A setting number 0 to 39. -/
def settingNumber (n : Nat) : Option (Fin 40) := if h : n < 40 then some ⟨n, h⟩ else none

/-- READ SETTING (R183). -/
def doReadSetting (args : List Byte) (p : Part) : Reply :=
  match settingNumber (readU8 args 0) with
  | none => refuse .badArgument p
  | some n => accept (u8 n.val ++ u16 (p.setting n)) p

/-- READ_SETTING. -/
def execReadSetting (s : State) : Host.Outcome State Fault Refusal := s.on (request 0x28 (fun _ => 1) doReadSetting)

/-- VALVE_REFRESH is read at each comparison: a write that lowers it below the time run causes a frame at once (10 R200). -/
def refreshCompare (p : Part) : Part := if p.sendsValve && ran p.link.refresh (p.setting 35) then buildFrame p else p

/-- A taken WRITE SETTING with all it does at once. -/
def settingTaken (n : Fin 40) (v : Int) (p : Part) : Part :=
  if n = 35 then refreshCompare (writeSetting n v p) else writeSetting n v p

/-- WRITE SETTING (R184). -/
def doWriteSetting (args : List Byte) (p : Part) : Reply :=
  match settingNumber (readU8 args 0) with
  | none => refuse .badArgument p
  | some n =>
    if settingInRange n (readI16 args 1) = false then refuse .badArgument p
    else if p.keepsWindow n (readI16 args 1) = false then refuse .badArgument p
    else if p.storing then refuse .busy p
    else accept (u8 n.val ++ u16 (readI16 args 1)) (settingTaken n (readI16 args 1) p)

/-- WRITE_SETTING. -/
def execWriteSetting (s : State) : Host.Outcome State Fault Refusal := s.on (request 0x29 (fun _ => 3) doWriteSetting)

/-! ### STORE and RESET -/

/-- STORE (R185, R186). -/
def doStore (_args : List Byte) (p : Part) : Reply :=
  if p.storing then refuse .busy p else accept [] { p with store := { p.store with inFlight := some 0 } }

/-- STORE. -/
def execStore (s : State) : Host.Outcome State Fault Refusal := s.on (request 0x2A (fun _ => 0) doStore)

/-- STORE_COMPLETION (R186): a store in flight completes. -/
def execStoreCompletion (held : Bool) (s : State) : Host.Outcome State Fault Refusal :=
  s.on fun p => perform p.storing (storeCompletes held) p

/-- The argument of RESET from its code. -/
def ResetKind.ofCode (n : Nat) : Option ResetKind := if n = 0 then some .normal else if n = 1 then some .factory else none

/-- RESET (R187): its answer goes on the send list; the reset takes effect when that answer has been sent, or at once during
bus-off. -/
def doReset (args : List Byte) (p : Part) : Reply :=
  match ResetKind.ofCode (readU8 args 0) with
  | none => refuse .badArgument p
  | some k => accept [byteAt args 0] { p with boot := { p.boot with resetPending := some k } }

/-- RESET. -/
def execReset (s : State) : Host.Outcome State Fault Refusal := s.on (request 0x30 (fun _ => 1) doReset)

end Sys2Proof.Machine
end

