-- ==== Sys2Proof/Machine/LinkEvents.lean ====
section
/-! DEFINITION. Power, start-up, and the events of the head bus: frames that arrive, frames sent, bus errors, bus-off, and the
timers of the link, the takeover monitor and the saw's expectation. -/

namespace Sys2Proof.Machine

/-- POWER_ON (09 R188). -/
def execPowerOn (straps : BitVec 2) (s : State) : Host.Outcome State Fault Refusal := s.on (powerUp straps)

/-- LOSS_OF_POWER (09 R186). -/
def execLossOfPower (s : State) : Host.Outcome State Fault Refusal := s.on powerDown

/-- STARTUP_DEADLINE (04 R80): the part is in start-up and the 2,000 ms have passed. -/
def execStartupDeadline (s : State) : Host.Outcome State Fault Refusal :=
  s.on fun p => perform (!p.boot.ready) deadlinePasses p

/-- REQUEST_FRAME (10 R191). -/
def execRequestFrame (frame : BusFrame) (s : State) : Host.Outcome State Fault Refusal :=
  s.on fun p => perform (p.hearsRequest frame) (requestArrives frame) p

/-- FRAME_TRANSMITTED (10 R194, R201). -/
def execFrameTransmitted (s : State) : Host.Outcome State Fault Refusal := s.on fun p => perform p.sending frameSent p

/-- TRANSMIT_ERROR (10 R201). -/
def execTransmitError (s : State) : Host.Outcome State Fault Refusal :=
  s.on fun p => perform (!p.link.busOff) transmitFails p

/-- BUS_OFF_RECOVERY (10 R201). -/
def execBusOffRecovery (s : State) : Host.Outcome State Fault Refusal := s.on fun p => perform p.link.busOff leaveBusOff p

/-- VALVE_REFRESH_EXPIRY (10 R200): a frame is built from the image as it stands, and the timer starts again. -/
def execValveRefreshExpiry (s : State) : Host.Outcome State Fault Refusal :=
  s.on fun p => perform (p.link.refresh.isSome && p.sendsValve) buildFrame p

/-- STICK_FRAME (08 R165). -/
def execStickFrame (frame : BusFrame) (s : State) : Host.Outcome State Fault Refusal :=
  s.on fun p => perform (p.hearsStick frame) (stickArrives frame) p

/-- TAKEOVER_RELEASE_EXPIRY (08 R167). -/
def execTakeoverReleaseExpiry (s : State) : Host.Outcome State Fault Refusal :=
  s.on fun p => perform p.monitor.takeover.timer.isSome releaseExpires p

/-- The advance expectation closes 500 ms after the last frame with saw advance (06 R140). -/
def expectationCloses (p : Part) : Part := { p with saw := { p.saw with expectation := none } }

/-- ADVANCE_EXPECTATION_EXPIRY (06 R140). -/
def execAdvanceExpectationExpiry (s : State) : Host.Outcome State Fault Refusal :=
  s.on fun p => perform p.saw.expectation.isSome expectationCloses p

end Sys2Proof.Machine
end

