-- ==== Sys2Proof/Machine/SensorEvents.lean ====
section
/-! DEFINITION. The events of the encoders, the wheel contact switch, the end sensor and the arm lines, and the timers of the
diameter unit (03, 04). -/

namespace Sys2Proof.Machine

/-- WHEEL_COUNT (03 R53). -/
def execWheelCount (forward : Bool) (s : State) : Host.Outcome State Fault Refusal :=
  s.on fun p => perform true (wheelCounts forward) p

/-- ROLLER_COUNT (03 R53). -/
def execRollerCount (forward : Bool) (s : State) : Host.Outcome State Fault Refusal :=
  s.on fun p => perform true (rollerCounts forward) p

/-- WHEEL_CONTACT_SWITCH (03 R55). -/
def execWheelContactSwitch (closed : Bool) (s : State) : Host.Outcome State Fault Refusal :=
  s.on (sense (contactLevel closed) fun x => { x with wheelClosed := closed })

/-- END_SENSOR_CHANGE (03 R73). -/
def execEndSensorChange (covered : Bool) (s : State) : Host.Outcome State Fault Refusal :=
  s.on (sense (endSensorLevel covered) fun x => { x with endCovered := covered })

/-- ARM_LINE_READING (04 R77, R78). -/
def execArmLineReading (line : Line) (reading : BitVec 12) (s : State) : Host.Outcome State Fault Refusal :=
  s.on (sense (lineReads line reading) fun x =>
    { x with readings := x.readings.set (lineIdx line).val reading (lineIdx line).isLt })

/-- LINE_OUT_OF_WINDOW_EXPIRY (04 R78). -/
def execLineOutOfWindowExpiry (line : Line) (s : State) : Host.Outcome State Fault Refusal :=
  s.on fun p => perform true (lineOutExpires line) p

/-- LINE_IN_WINDOW_EXPIRY (04 R78). -/
def execLineInWindowExpiry (line : Line) (s : State) : Host.Outcome State Fault Refusal :=
  s.on fun p => perform true (lineInExpires line) p

/-- GRIP_SAMPLE_EXPIRY (04 R82). -/
def execGripSampleExpiry (s : State) : Host.Outcome State Fault Refusal :=
  s.on fun p => perform p.diameter.gripWait.isSome gripSample p

/-- DROP_TIMER_EXPIRY (04 R90): the drop report; the timer stops. -/
def execDropTimerExpiry (s : State) : Host.Outcome State Fault Refusal :=
  s.on fun p => perform p.diameter.dropTimer.isSome dropReport p

end Sys2Proof.Machine
end

