-- ==== Sys2Proof/Machine/SawEvents.lean ====
section
/-! DEFINITION. The timers of the feed and the saw, and the events of the bar's switches (05, 06). -/

namespace Sys2Proof.Machine

/-- SETTLE_TIMER_EXPIRY (05 R101). -/
def execSettleTimerExpiry (s : State) : Host.Outcome State Fault Refusal :=
  s.on fun p => perform p.feed.settle.isSome settleEnds p

/-- STALL_TIMER_EXPIRY (05 R108, R109). -/
def execStallTimerExpiry (s : State) : Host.Outcome State Fault Refusal :=
  s.on fun p => perform p.feed.watch.isSome stallOutcome p

/-- BAR_LEAVES_HOME (06 R125, R135). -/
def execBarLeavesHome (s : State) : Host.Outcome State Fault Refusal :=
  s.on (sense barLeaves fun x => { x with homeClosed := false })

/-- END_OF_STROKE (06 R125, R127, R136). -/
def execEndOfStroke (s : State) : Host.Outcome State Fault Refusal :=
  s.on (sense strokeEnds fun x => { x with endOfStroke := true })

/-- BAR_HOME (06 R125, R128, R134, R137). -/
def execBarHome (s : State) : Host.Outcome State Fault Refusal :=
  s.on (sense barHomes fun x => { x with homeClosed := true, endOfStroke := false })

/-- CUT_TIMER_EXPIRY (06 R129, R131). -/
def execCutTimerExpiry (s : State) : Host.Outcome State Fault Refusal :=
  s.on fun p => perform p.saw.cutTimer.isSome cutTimesOut p

/-- RETURN_TIMER_EXPIRY (06 R133). -/
def execReturnTimerExpiry (s : State) : Host.Outcome State Fault Refusal :=
  s.on fun p => perform p.saw.returnTimer.isSome returnTimesOut p

end Sys2Proof.Machine
end

