-- ==== Sys2Proof/Machine/Dispatch.lean ====
section
/-! DEFINITION. The dispatch of commands: one arm per row of the opcode table. -/

namespace Sys2Proof.Machine

/-- A command's effect on everything but the queue. -/
def exec (i : Instr) (s : State) : Host.Outcome State Fault Refusal :=
  match i with
  | .powerOn straps => Sys2Proof.Machine.execPowerOn straps s
  | .requestFrame frame => Sys2Proof.Machine.execRequestFrame frame s
  | .badRequest => Sys2Proof.Machine.execBadRequest s
  | .status => Sys2Proof.Machine.execStatus s
  | .readConditions => Sys2Proof.Machine.execReadConditions s
  | .setMasks => Sys2Proof.Machine.execSetMasks s
  | .setProfile => Sys2Proof.Machine.execSetProfile s
  | .setFeed => Sys2Proof.Machine.execSetFeed s
  | .knifeOverride => Sys2Proof.Machine.execKnifeOverride s
  | .takeover => Sys2Proof.Machine.execTakeover s
  | .cutNow => Sys2Proof.Machine.execCutNow s
  | .openStem => Sys2Proof.Machine.execOpenStem s
  | .attachStem => Sys2Proof.Machine.execAttachStem s
  | .finishStem => Sys2Proof.Machine.execFinishStem s
  | .retireStem => Sys2Proof.Machine.execRetireStem s
  | .readStem => Sys2Proof.Machine.execReadStem s
  | .readEntries => Sys2Proof.Machine.execReadEntries s
  | .appendEntry => Sys2Proof.Machine.execAppendEntry s
  | .insertEntry => Sys2Proof.Machine.execInsertEntry s
  | .changeEntry => Sys2Proof.Machine.execChangeEntry s
  | .cancelEntry => Sys2Proof.Machine.execCancelEntry s
  | .readSpecies => Sys2Proof.Machine.execReadSpecies s
  | .writeSpecies => Sys2Proof.Machine.execWriteSpecies s
  | .clearSpecies => Sys2Proof.Machine.execClearSpecies s
  | .calibrate => Sys2Proof.Machine.execCalibrate s
  | .readSetting => Sys2Proof.Machine.execReadSetting s
  | .writeSetting => Sys2Proof.Machine.execWriteSetting s
  | .store => Sys2Proof.Machine.execStore s
  | .storeCompletion held => Sys2Proof.Machine.execStoreCompletion held s
  | .reset => Sys2Proof.Machine.execReset s
  | .startupDeadline => Sys2Proof.Machine.execStartupDeadline s
  | .frameTransmitted => Sys2Proof.Machine.execFrameTransmitted s
  | .transmitError => Sys2Proof.Machine.execTransmitError s
  | .busOffRecovery => Sys2Proof.Machine.execBusOffRecovery s
  | .valveRefreshExpiry => Sys2Proof.Machine.execValveRefreshExpiry s
  | .stickFrame frame => Sys2Proof.Machine.execStickFrame frame s
  | .takeoverReleaseExpiry => Sys2Proof.Machine.execTakeoverReleaseExpiry s
  | .advanceExpectationExpiry => Sys2Proof.Machine.execAdvanceExpectationExpiry s
  | .wheelCount forward => Sys2Proof.Machine.execWheelCount forward s
  | .rollerCount forward => Sys2Proof.Machine.execRollerCount forward s
  | .wheelContactSwitch closed => Sys2Proof.Machine.execWheelContactSwitch closed s
  | .endSensorChange covered => Sys2Proof.Machine.execEndSensorChange covered s
  | .gripSampleExpiry => Sys2Proof.Machine.execGripSampleExpiry s
  | .armLineReading line reading => Sys2Proof.Machine.execArmLineReading line reading s
  | .lineOutOfWindowExpiry line => Sys2Proof.Machine.execLineOutOfWindowExpiry line s
  | .lineInWindowExpiry line => Sys2Proof.Machine.execLineInWindowExpiry line s
  | .dropTimerExpiry => Sys2Proof.Machine.execDropTimerExpiry s
  | .settleTimerExpiry => Sys2Proof.Machine.execSettleTimerExpiry s
  | .stallTimerExpiry => Sys2Proof.Machine.execStallTimerExpiry s
  | .barLeavesHome => Sys2Proof.Machine.execBarLeavesHome s
  | .endOfStroke => Sys2Proof.Machine.execEndOfStroke s
  | .barHome => Sys2Proof.Machine.execBarHome s
  | .cutTimerExpiry => Sys2Proof.Machine.execCutTimerExpiry s
  | .returnTimerExpiry => Sys2Proof.Machine.execReturnTimerExpiry s
  | .lossOfPower => Sys2Proof.Machine.execLossOfPower s

end Sys2Proof.Machine
end

