-- ==== Sys2Proof/Machine/Time.lean ====
section
/-! DEFINITION. What the part does by itself while no command waits: it takes the request at the head of its queue, it takes a
timer that has run out, or one millisecond passes (log 3, log 5). -/

namespace Sys2Proof.Machine

/-! ### One millisecond -/

/-- A running timer runs on. -/
def tick (t : Option Nat) : Option Nat := t.map (· + 1)

/-- The timed run of a line; a DISABLED line times none (04 R78, log 19). -/
def LineUnit.tick (u : LineUnit) : LineUnit :=
  if u.state = .disabled then u else { u with run := some (u.run.getD 0 + 1) }

/-- The timers of the diameter unit (04 R78, R82, R90). -/
def DiameterUnit.tick (d : DiameterUnit) : DiameterUnit :=
  { d with
    lines := d.lines.map LineUnit.tick
    gripWait := Machine.tick d.gripWait
    dropTimer := Machine.tick d.dropTimer }

/-- The timers of the feed controller (05 R101, R108). -/
def Feed.tick (f : Feed) : Feed :=
  { f with
    settle := Machine.tick f.settle
    watch := f.watch.map fun w => { w with elapsed := w.elapsed + 1 } }

/-- The timers of the saw controller (06 R129, R133, R140). -/
def Saw.tick (s : Saw) : Saw :=
  { s with
    cutTimer := Machine.tick s.cutTimer
    returnTimer := Machine.tick s.returnTimer
    expectation := Machine.tick s.expectation }

/-- The release timer of a snooped takeover (08 R167). -/
def Takeover.tick : Takeover → Takeover
  | .snooped t => .snooped (t + 1)
  | .requested => .requested
  | .none => .none

/-- One millisecond passes: every timer that runs, runs on. An unpowered part times nothing. -/
def millisecond (p : Part) : Part :=
  if p.powered then
    { p with
      boot := { p.boot with elapsed := tick p.boot.elapsed }
      diameter := p.diameter.tick
      feed := p.feed.tick
      saw := p.saw.tick
      monitor := { p.monitor with takeover := p.monitor.takeover.tick }
      store := { p.store with inFlight := tick p.store.inFlight }
      link := { p.link with refresh := tick p.link.refresh } }
  else p

/-! ### What is due -/

/-- The row of a request code (11.2). -/
def requestRow (code : Byte) : Instr :=
  if code = 0x01 then .status
  else if code = 0x02 then .readConditions
  else if code = 0x03 then .setMasks
  else if code = 0x04 then .setProfile
  else if code = 0x05 then .setFeed
  else if code = 0x06 then .knifeOverride
  else if code = 0x07 then .takeover
  else if code = 0x08 then .cutNow
  else if code = 0x10 then .openStem
  else if code = 0x11 then .attachStem
  else if code = 0x12 then .finishStem
  else if code = 0x13 then .retireStem
  else if code = 0x14 then .readStem
  else if code = 0x15 then .readEntries
  else if code = 0x18 then .appendEntry
  else if code = 0x19 then .insertEntry
  else if code = 0x1A then .changeEntry
  else if code = 0x1B then .cancelEntry
  else if code = 0x20 then .readSpecies
  else if code = 0x21 then .writeSpecies
  else if code = 0x22 then .clearSpecies
  else if code = 0x23 then .calibrate
  else if code = 0x28 then .readSetting
  else if code = 0x29 then .writeSetting
  else if code = 0x2A then .store
  else if code = 0x30 then .reset
  else .badRequest

/-- The row that takes the request at the head of the queue, if the link takes requests (10 R191). -/
def Part.ownRequest (p : Part) : Option Instr :=
  if p.takesRequests then
    match p.link.requests with
    | [] => none
    | (c :: _ :: _) :: _ => some (requestRow c)
    | _ :: _ => some .badRequest
  else none

/-- A line's reading has been out of window for 20 ms, or in window for 200 ms, in a state that acts on it (04 R78). -/
def Part.lineDue (p : Part) (l : Line) : Option Instr :=
  match (p.line l).state, p.outOfWindow l with
  | .qualifying, some _ => if ran (p.line l).run 20 then some (.lineOutOfWindowExpiry l) else none
  | .ok, some _ => if ran (p.line l).run 20 then some (.lineOutOfWindowExpiry l) else none
  | .qualifying, none => if ran (p.line l).run 200 then some (.lineInWindowExpiry l) else none
  | .fault _, none => if ran (p.line l).run 200 then some (.lineInWindowExpiry l) else none
  | _, _ => none

/-- An expiry where its timer has run its limit. -/
def dueWhen (due : Bool) (c : Instr) : Option Instr := if due then some c else none

/-- The first timer that has run its limit, in the order of log 5. -/
def Part.ownExpiry (p : Part) : Option Instr :=
  dueWhen (ran p.boot.elapsed 2000) .startupDeadline
    <|> p.lineDue .ka <|> p.lineDue .kb <|> p.lineDue .rl
    <|> dueWhen (ran p.diameter.gripWait 200) .gripSampleExpiry
    <|> dueWhen (ran p.diameter.dropTimer 300) .dropTimerExpiry
    <|> dueWhen (ran p.feed.settle (p.setting 10)) .settleTimerExpiry
    <|> dueWhen (ran (p.feed.watch.map (·.elapsed)) (p.setting 11)) .stallTimerExpiry
    <|> dueWhen (ran p.saw.cutTimer (p.setting 15)) .cutTimerExpiry
    <|> dueWhen (ran p.saw.returnTimer (p.setting 16)) .returnTimerExpiry
    <|> dueWhen (ran p.saw.expectation 500) .advanceExpectationExpiry
    <|> dueWhen (ran p.monitor.takeover.timer (p.setting 39)) .takeoverReleaseExpiry
    <|> dueWhen (p.sendsValve && ran p.link.refresh (p.setting 35)) .valveRefreshExpiry
    <|> dueWhen (ran p.store.inFlight 80) (.storeCompletion (Config.storeHolds p.draws))

/-- The part's own next command: the head request first, then a timer that has run out; none on an unpowered part. -/
def Part.own (p : Part) : Option Instr := if p.powered then p.ownRequest <|> p.ownExpiry else none

/-- The block with no command waiting: its own next command, else one millisecond. -/
def idle (s : State) : Host.Outcome State Fault Refusal :=
  match s.part.own with
  | some c => exec c s
  | none => .next { s with part := millisecond s.part }

end Sys2Proof.Machine
end

