-- ==== Sys2Proof/Machine/Step.lean ====
section
/-! DEFINITION. One step of the block. -/

namespace Sys2Proof.Machine

/-- The command at the front of the queue is taken; on an empty queue the block idles as `idle` says (log 3). -/
def step (s : State) : Host.Outcome State Fault Refusal :=
  match s.pending with
  | [] => idle s
  | c :: rest => exec c { s with pending := rest }

/-- No word spells a command, so nothing is put in front of the queue. -/
def State.withFetchWord (s : State) (_nbits _w : Nat) : State := s

end Sys2Proof.Machine
end

