-- ==== Sys2Proof/Safety.lean ====
section
/-! DEFINITION. The words in which claims about the part are stated: a command that runs, a request that is taken and
answered, what an event may change, and the invariants. -/

namespace Sys2Proof.Machine

/-! ### Commands and requests -/

/-- A command runs: it answers the next state with the part `q` and the queue as it was. -/
def Runs (c : Instr) (s : State) (q : Part) : Prop := exec c s = .next { s with part := q }

/-- A request heads the queue of a part that takes requests (R191): powered, no RESET taken, room on the send list. -/
def Part.heads (p : Part) (code tag : Byte) (args : List Byte) (rest : List (List Byte)) : Prop :=
  p.powered = true ∧ p.boot.resetPending = none ∧ p.link.sendList.length < 16 ∧ p.link.requests = (code :: tag :: args) :: rest

/-- The request also passes the test of readiness (R189, R192). -/
def Part.offers (p : Part) (code tag : Byte) (args : List Byte) (rest : List (List Byte)) : Prop :=
  p.heads code tag args rest ∧ (p.boot.ready = true ∨ takenUnready.contains code = true)

/-- The lengths of the requests' arguments (11.2, R203). -/
def argLength (code : Byte) (args : List Byte) : Nat :=
  if code = 0x02 ∨ code = 0x03 ∨ code = 0x11 ∨ code = 0x12 ∨ code = 0x13 ∨ code = 0x14 then 2
  else if code = 0x10 then openNeed args
  else if code = 0x15 then 4
  else if code = 0x18 then 13
  else if code = 0x19 ∨ code = 0x1A then 14
  else if code = 0x1B then 5
  else if code = 0x21 then 24
  else if code = 0x23 then 9
  else if code = 0x29 then 3
  else if code = 0x01 ∨ code = 0x08 ∨ code = 0x2A then 0
  else 1

/-- The part once its head request has left the queue and an answer has been placed, which bus-off discards (R191, R201). -/
def Part.withAnswer (p : Part) (a : Answer) (rest : List (List Byte)) : Part :=
  { p with link := { p.link with
      requests := rest
      sendList := if p.link.busOff then [] else p.link.sendList ++ [.answer a] } }

/-- From `p` to `q` the head request has left the queue and its answer stands at the end of the send list, before the notices
of the request's own effects; during bus-off both are discarded (R191, R194, R201). -/
def Part.replies (p q : Part) (a : Answer) (rest : List (List Byte)) : Prop :=
  q.link.requests = rest ∧
    if p.link.busOff then q.link.sendList = []
    else ∃ notices : List SendItem, q.link.sendList = p.link.sendList ++ .answer a :: notices

/-- The answer OK with its results. -/
def okAnswer (code tag : Byte) (results : List Byte) : Answer := { code, tag, answer := .ok, results }

/-! ### Refusals, as the tables of the spec order them (10 R192, R193) -/

/-- The first test that fails gives the answer; none where every test passes. -/
def firstFailing : List (Bool × AnswerCode) → Option AnswerCode
  | [] => none
  | (fails, code) :: rest => if fails then some code else firstFailing rest

/-- The tests of a request that names a record: NO_SUCH_STEM first (01 R3), then the request's own table. -/
def Part.stemTests (p : Part) (args : List Byte) (tests : Fin 8 → Record → List (Bool × AnswerCode)) : Option AnswerCode :=
  match p.lookup (readStem args) with
  | none => some .noSuchStem
  | some i =>
    match p.recordAt i with
    | none => some .noSuchStem
    | some r => firstFailing (tests i r)

/-- The tests that the four amendments share (02 R29, tests 2 and 3). -/
def amendmentTests (args : List Byte) (r : Record) : List (Bool × AnswerCode) :=
  [(r.state == .finished, .wrongState), (readWord args 2 != r.revision, .staleRevision)]

/-- Whether the index of an amendment names the ARMED entry. -/
def Record.namesArmed (r : Record) (index : Nat) : Bool := (r.reach index).any fun e => e.state == .armed

/-- The tests of CALIBRATE on an entry (09 R179, tests 3 to 9). -/
def Part.calibrateTests (p : Part) (args : List Byte) (r : Record) (e : Entry) : List (Bool × AnswerCode) :=
  let length := readOptI32 args 3
  let diameter := readOptU16 args 7
  let s := p.species r.species
  let raw := (e.results.bind (·.rawWheel)).getD 0
  let cut := (e.results.bind (·.cutDia)).map Int.ofNat
  [(!truthsAllowed length diameter, .badArgument), (p.storing, .busy), (e.state != .done || e.results.isNone, .notCalibratable),
    (length.isSome && decide (raw < 100), .notCalibratable),
    (diameter.isSome && cut.isNone, .notCalibratable),
    (length.any fun l => !corrAllowed s.wheelCorr (calibratedCorr l raw), .badArgument),
    (diameter.any fun d => !within (-20) 20 (diamStep s d (cut.getD 0)), .badArgument)]

/-- The answer with which a request is refused by its owner, none where it is taken. -/
def Part.refusal (p : Part) (code : Byte) (args : List Byte) : Option AnswerCode :=
  let a := readU8 args 0
  if code = 0x04 then
    firstFailing [(decide (3 < a), .badArgument), (p.saw.state != .parked, .busy), (a == 0 && p.hasActive, .inHead)]
  else if code = 0x05 then
    firstFailing [(decide (2 < a), .badArgument), (!p.monitor.profile.works, .wrongState), (!p.hasActive, .noSuchStem)]
  else if code = 0x06 then firstFailing [(decide (100 < a ∧ a ≠ 255), .badArgument)]
  else if code = 0x07 then firstFailing [(decide (1 < a), .badArgument), (p.setting 38 == 1, .wrongState)]
  else if code = 0x08 then
    firstFailing [(!p.monitor.profile.works, .wrongState), (!p.hasActive, .noSuchStem),
      (p.monitor.takeover.inForce, .wrongState), (p.saw.state != .parked && p.saw.state != .fault, .busy),
      (p.feed.pendingDirect, .busy)]
  else if code = 0x10 then
    firstFailing [((p.validSpecies a).isNone, .badArgument),
      (decide (4 < readU8 args 1) || !(inlinePlans args (readU8 args 1)).all Planned.allowed, .badArgument),
      (p.freeSlot.isNone, .tableFull)]
  else if code = 0x11 then
    p.stemTests args fun i r =>
      [(p.monitor.profile == .off, .wrongState), (r.state == .active || r.state == .finished, .wrongState),
        (p.boundTo i, .busy), (p.hasActive, .headOccupied)]
  else if code = 0x12 then
    p.stemTests args fun i r => [(r.state == .opened || r.state == .finished, .wrongState), (p.boundTo i, .busy)]
  else if code = 0x13 then p.stemTests args fun i r => [(r.state == .active, .inHead), (p.boundTo i, .busy)]
  else if code = 0x14 then p.stemTests args fun _ _ => []
  else if code = 0x15 then
    p.stemTests args fun _ r =>
      [(decide (r.entries.length ≤ readU8 args 2), .noSuchEntry),
        (readU8 args 3 == 0 || decide (2 < readU8 args 3), .badArgument)]
  else if code = 0x18 then
    p.stemTests args fun _ r =>
      amendmentTests args r ++
        [(!(readPlanned args 4).allowed, .badArgument), (decide (12 ≤ r.entries.length), .planFull)]
  else if code = 0x19 then
    p.stemTests args fun _ r =>
      amendmentTests args r ++
        [((r.reach (readU8 args 4)).isNone && readU8 args 4 != r.entries.length, .badArgument),
          (!(readPlanned args 5).allowed, .badArgument), (decide (12 ≤ r.entries.length), .planFull),
          (r.namesArmed (readU8 args 4) && p.tooLate (some (readPlanned args 5).target), .tooLate)]
  else if code = 0x1A then
    p.stemTests args fun _ r =>
      amendmentTests args r ++
        [((r.reach (readU8 args 4)).isNone, .noSuchEntry), (!(readPlanned args 5).allowed, .badArgument),
          (r.namesArmed (readU8 args 4) && p.tooLate (some (readPlanned args 5).target), .tooLate)]
  else if code = 0x1B then
    p.stemTests args fun _ r =>
      amendmentTests args r ++
        [((r.reach (readU8 args 4)).isNone, .noSuchEntry),
          (r.namesArmed (readU8 args 4) && p.tooLate (r.nextTarget (readU8 args 4)), .tooLate)]
  else if code = 0x20 then firstFailing [(decide (31 < a), .badArgument)]
  else if code = 0x21 then
    firstFailing [(decide (31 < a), .badArgument), (!(readSpeciesImage args 1).inRange, .badArgument), (p.storing, .busy)]
  else if code = 0x22 then
    firstFailing [(decide (31 < a), .badArgument), (p.storing, .busy), ((speciesCode a).any p.named, .inUse)]
  else if code = 0x23 then
    p.stemTests args fun _ r =>
      match r.entries[readU8 args 2]? with
      | none => [(true, .noSuchEntry)]
      | some e => p.calibrateTests args r e
  else if code = 0x28 then firstFailing [(decide (39 < a), .badArgument)]
  else if code = 0x29 then
    match settingNumber a with
    | none => some .badArgument
    | some n =>
      firstFailing [(!settingInRange n (readI16 args 1), .badArgument), (!p.keepsWindow n (readI16 args 1), .badArgument),
        (p.storing, .busy)]
  else if code = 0x2A then firstFailing [(p.storing, .busy)]
  else if code = 0x30 then firstFailing [(decide (1 < a), .badArgument)]
  else none

/-- A request heads the queue, is long enough, is not turned away for readiness, and no test of its owner fails: the part takes
it (R191 to R193). -/
def Part.granted (p : Part) (code tag : Byte) (args : List Byte) (rest : List (List Byte)) : Prop :=
  p.offers code tag args rest ∧ argLength code args ≤ args.length ∧ p.refusal code args = none

/-- The part once its head request has left the queue. -/
def Part.took (p : Part) (rest : List (List Byte)) : Part := { p with link := { p.link with requests := rest } }

/-! ### What an event may change -/

/-- From `p` to `q` the feed has moved: nothing has changed but the feed, the creep interval that its entries begin and end,
and the conditions and notices it raises. -/
def FeedOnly (p q : Part) : Prop :=
  q = { p with
    feed := q.feed
    length := { p.length with creep := q.length.creep }
    link := { p.link with conditions := q.link.conditions, sendList := q.link.sendList } }

/-- From `p` to `q` nothing has changed but what the end of an event may change: READY, the slip window, the creep interval,
the hold, the drop timer, the feed, the knives, and in the link the send list, the conditions, the image, the waiting valve
command frame and its timer. -/
def Follows (p q : Part) : Prop :=
  q = { p with
    boot := q.boot
    length := { p.length with slip := q.length.slip, creep := q.length.creep }
    diameter := { p.diameter with hold := q.diameter.hold, dropTimer := q.diameter.dropTimer }
    feed := q.feed
    knife := q.knife
    link := { p.link with
      sendList := q.link.sendList, conditions := q.link.conditions, image := q.link.image, valve := q.link.valve
      refresh := q.link.refresh } }

/-- From `p` to `q` nothing has changed but the demand image, the waiting valve command frame and its timer (R200). -/
def ValveOnly (p q : Part) : Prop :=
  q = { p with link := { p.link with image := q.link.image, valve := q.link.valve, refresh := q.link.refresh } }

/-- From `p` to `q` no condition has changed but, perhaps raised, those named (R195). -/
def RaisesOnly (cs : List Condition) (p q : Part) : Prop :=
  ∀ c : Condition, (c ∈ cs → p.raised c = true → q.raised c = true) ∧ (c ∉ cs → q.raised c = p.raised c)

/-- From `p` to `q` an event of the head's work changes no more than this: the records, the measuring units, the feed, the saw,
the knives, the guidance, and in the link the send list, the conditions, the image, the waiting valve command frame and its
timer. Pins, settings, species, profile, takeover and the link's other registers stay. -/
def HeadWork (p q : Part) : Prop :=
  q = { p with
    boot := q.boot, table := q.table, length := q.length, diameter := q.diameter, feed := q.feed, saw := q.saw, knife := q.knife
    monitor := { p.monitor with guidance := q.monitor.guidance }
    link := { p.link with
      sendList := q.link.sendList, conditions := q.link.conditions, image := q.link.image, valve := q.link.valve
      refresh := q.link.refresh } }

/-- The other slots of the stem table are as they were. -/
def OtherSlotsKept (p q : Part) (i : Fin 8) : Prop := ∀ j : Fin 8, j ≠ i → q.table.slots[j] = p.table.slots[j]

/-- The send list once an event has placed `l` and raised a condition last: its CONDITION notice follows where the condition was
clear and unmasked (R197), the list keeps its limit, and bus-off discards all (R194, R201). -/
def Part.announced (p : Part) (c : Condition) (l : List SendItem) : List SendItem :=
  if p.link.busOff then []
  else (if p.raised c = true ∨ p.link.mask.getLsbD c.bit = true then l
    else l ++ [.notice (.condition c.word (p.link.conditions ||| c.word))]).take 16

/-- From `p` to `q` every block has taken its reset state and start-up has begun (01 R1, 03 R66, 04 R87, 05 R97, 06 R124,
07 R145, 08 R157, 09 R187, R188, 10 R201). -/
def Restarted (p q : Part) : Prop :=
  q.pins = p.pins ∧ q.table = .reset ∧ q.length = .reset p.pins.wheelClosed p.pins.endCovered
    ∧ q.diameter = .reset q.startLines ∧ q.feed = .reset ∧ q.saw = .reset p.pins.homeClosed ∧ q.knife = .reset
    ∧ q.monitor = .reset ∧ q.boot.resetPending = none
    ∧ q.boot.ready = [Line.ka, .kb, .rl].all (fun l => !q.lineEnabled l)
    ∧ q.link.node = q.nodeAddress ∧ q.link.requests = [] ∧ q.link.mask = 0 ∧ q.link.image = .reset q.saw.state
    ∧ q.link.valve = none ∧ q.link.refresh = none ∧ q.link.errors = 0 ∧ q.link.busOff = false

/-- A RESET of a kind has taken effect: the blocks have restarted, conditions and send list are empty, a store in flight is cut
off, the working copy is kept or the built-in one (09 R187). -/
def ResetTaken (k : ResetKind) (p q : Part) : Prop :=
  Restarted p q ∧ q.powered = p.powered ∧ q.link.sendList = [] ∧ q.link.conditions = 0
    ∧ q.store = { p.store.cutOff with working := if k = .normal then p.store.working else .builtIn }

/-- A takeover has begun (08 R170): the takeover `t`, the knives YIELDED, the feed MANUAL with a record ACTIVE in PROCESS or
FELL_PROCESS, the ACTIVE record marked, a manual cycle commanded, TAKEOVER raised in PROCESS and FELL_PROCESS. -/
def TakeoverBegun (t : Takeover) (p q : Part) : Prop :=
  q.monitor.takeover = t ∧ q.knife = { p.knife with state := .yielded, pressure := none }
    ∧ q.link.image.knife = .none
    ∧ (p.hasActive = true → p.monitor.profile.works = true →
        q.feed.state = .manual ∧ q.feed.pendingDirect = false ∧ q.feed.request = .none ∧ q.feed.stallOut = false
          ∧ q.link.image.feed = .none)
    ∧ (p.hasActive = false ∨ p.monitor.profile.works = false → q.feed = p.feed.withdraw)
    ∧ q.feed.held = p.feed.held ∧ q.feed.corrections = p.feed.corrections ∧ q.feed.value = p.feed.value
    ∧ (∀ i r, p.activeSlot = some i → p.recordAt i = some r →
        q.recordAt i = some { r with takeoverSeen := true } ∧ OtherSlotsKept p q i)
    ∧ q.table.bound = p.table.bound ∧ (p.hasActive = false → q.table = p.table)
    ∧ q.saw = { p.saw with
        expectation := q.saw.expectation
        cycle := if p.saw.state = .manual then p.saw.cycle.map (fun c => { c with commanded := true }) else p.saw.cycle }
    ∧ (p.monitor.profile.works = true → q.raised .takeover = true)
    ∧ RaisesOnly (if p.monitor.profile.works then [.takeover] else []) p q

/-- A takeover has ended by its release timer or by TAKEOVER END (08 R171): the value is GRIP and the feed has decided afresh. -/
def TakeoverEnded (p q : Part) : Prop :=
  q.monitor = { p.monitor with takeover := .none } ∧ q.feed.value = .grip ∧ q.feed.pendingDirect = false
    ∧ (p.feed.cutTaken = false →
        q.feed.state = if p.hasActive && p.monitor.profile.works then .grip else .idle)
    ∧ q.feed.held = p.feed.held ∧ q.feed.corrections = p.feed.corrections
    ∧ q.link.conditions = p.link.conditions

/-- Whether an entry is held with a minimum small-end diameter above the current diameter (04 R92). -/
def Part.thin (p : Part) : Bool :=
  match p.diameter.entry, p.currentDiameter with
  | some (some least), some now => decide (now < least)
  | _, _ => false

/-- From `p` to `q` the minimum-diameter watch has made its test (04 R92, 05 R120), with a hold in force `before` it or none: no
thin stem is fed without a hold; a hold that has come into force has DIAM_REJECT raised and the feed decided afresh; a hold in
force stays. -/
def HoldTested (before : Bool) (p q : Part) : Prop :=
  (before = false → q.thin = true → q.feed.state ≠ .feed ∧ q.feed.state ≠ .approach)
    ∧ (before = false → q.diameter.hold = true →
        q.thin = true ∧ q.raised .diamReject = true ∧ q.feed.state = q.decision)
    ∧ (before = true → q.diameter.hold = true)
    ∧ (q.diameter.hold = before → q.raised .diamReject = p.raised .diamReject)

/-- Whether a part in MEASURE_ONLY has the ACTIVE stem's log position within the window of planned fields (08 R164; in
whole millimetres: log 9). -/
def Part.atTarget (p : Part) (profile : Profile) (plan : Planned) : Bool :=
  profile == .measureOnly && p.hasActive &&
    match p.logMm with
    | some pos => decide (plan.target - plan.minus ≤ pos) && decide (pos ≤ plan.target + plan.plus)
    | none => false

/-- The AT_TARGET notice of an entry at a position stands on the send list of `q` (08 R164, 11.7): the ACTIVE record of `p`, the
entry's index in it, the revision, the target and the tolerances. -/
def AtTargetSent (ident : Nat) (plan : Planned) (pos : Int) (p q : Part) : Prop :=
  ∀ i r, p.activeSlot = some i → p.recordAt i = some r →
    SendItem.notice (.atTarget (p.stemId i) ((indexOf ident r.entries).getD 0) r.revision plan.target plan.minus plan.plus pos)
      ∈ q.link.sendList

/-- From `p` to `q` the feed has taken the ARMED entry handed on, or that there is none, and acted by its state (05 R116): in FEED an
entry is placed, at the success of a recovery too (that this is tested at the hand-over: log 23), and a recovery that has not
succeeded goes on with it; no ARMED entry, or any hand-over in GRIP, makes it decide afresh; the other states keep it. A hold that
comes into force at once is `HoldTested`'s. -/
def EntryFed (e : Option Entry) (p q : Part) : Prop :=
  let fed : Part := { p with feed := { p.feed with held := e.map Entry.heldEntry } }
  (p.feed.state = .grip → q.feed.state = q.decision)
    ∧ (p.feed.state = .feed → e.isSome = true → q.diameter.hold = false → q.feed.state = fed.placement)
    ∧ (e = none → p.feed.state.motion = true → p.feed.state ≠ .seek → q.feed.state = q.decision)
    ∧ (e = none → p.feed.state = .settle → q.feed.state = q.decision)
    ∧ (∀ ph, p.feed.state = .recover ph → e.isSome = true →
        (ph = .back ∨ fed.recoverySucceeds = false → q.feed.state = .recover ph ∧ q.feed.attempts = p.feed.attempts
            ∧ q.feed.stallPoint = p.feed.stallPoint)
          ∧ (ph = .forward → fed.recoverySucceeds = true → q.feed.attempts = 0
            ∧ (q.diameter.hold = false → q.feed.state = fed.placement)))
    ∧ (p.feed.state = .idle ∨ p.feed.state = .seek ∨ p.feed.state = .cutWait ∨ p.feed.state = .stalled
        ∨ p.feed.state = .manual → q.feed.state = p.feed.state)

/-- From `p` to `q` the ARMED entry, or that there is none, has been handed on (02 R38): the diameter unit holds it with its
minimum and half target (04 R89, R92), a hold has ended and the test been made at once (04 R93), the feed holds it; `fresh`
occasions restart the correction count (05 R103). The guidance holds its window and announces it where the position lies within
(08 R164; in whole millimetres: log 9; an entry is compared with the one last held by identity and all planned fields: log 21).
The feed has acted on it by its state (05 R116). A target whose half already lies behind has no crossing left in this log (04 R89;
log 40). -/
def HandedOn (e : Option Entry) (fresh : Bool) (p q : Part) : Prop :=
  Follows { p with
      diameter := { p.diameter with
        entry := e.map (·.plan.minDia)
        mid := match e with
          | none => p.diameter.mid
          | some x =>
            if p.diameter.mid.target = some x.plan.target then p.diameter.mid
            else { target := some x.plan.target, capture := none
                   crossed := p.length.logPos.any fun pos => decide (500 * x.plan.target ≤ pos) } }
      monitor := { p.monitor with guidance := q.monitor.guidance } } q
    ∧ HoldTested false p q
    ∧ q.monitor.guidance.window = e.isSome
    ∧ (e = none → q.monitor.guidance.last = p.monitor.guidance.last
        ∧ q.monitor.guidance.announced = p.monitor.guidance.announced)
    ∧ (∀ x, e = some x →
        let kept : Bool := p.monitor.guidance.last == some (x.ident, x.plan) && p.monitor.guidance.announced
        q.monitor.guidance.last = some (x.ident, x.plan)
          ∧ q.monitor.guidance.announced = (kept || p.atTarget p.monitor.profile x.plan)
          ∧ ∀ pos, p.logMm = some pos → kept = false → p.atTarget p.monitor.profile x.plan = true → p.link.busOff = false →
              p.link.sendList.length < 14 → AtTargetSent x.ident x.plan pos p q)
    ∧ q.feed.held = e.map Entry.heldEntry
    ∧ q.feed.corrections = (if fresh && e.isSome then 0 else p.feed.corrections)
    ∧ EntryFed e p q

/-- From `p` to `q` a cut of a kind has started (01 R16, 02 R41, 03 R62): it is bound, its results are taken and held, the entry
it will be recorded in is CUTTING, and the carry has begun. -/
def CutStarted (kind : CutKind) (p q : Part) : Prop :=
  (p.hasActive = false → q.table.bound = none ∧ q.table.slots = p.table.slots)
    ∧ ∀ i r, p.activeSlot = some i → p.recordAt i = some r →
      q.length.carry = some { pos := 0, log := { mark := p.source.mark, slip := false, creep := false, raw := 0 } }
        ∧ q.length.logPos = p.length.logPos ∧ q.length.history = p.length.history ∧ OtherSlotsKept p q i
        ∧ (r.reference = .none →
            q.table.bound = some { slot := i, kind, target := .reference p.monitor.profile p.currentDiameter }
              ∧ q.recordAt i = some r)
        ∧ (r.reference ≠ .none → ∀ e, p.cutEntry r kind = some e →
            q.table.bound = some { slot := i, kind, target := .entry e.ident (p.takeResults kind (some e.plan)) }
              ∧ q.recordAt i =
                some { r with entries := (changeFirst e.ident .armed Entry.toCutting r.entries).getD r.entries }
              ∧ q.feed.held = none)
        ∧ (r.reference ≠ .none → p.cutEntry r kind = none →
            q.table.bound = some { slot := i, kind, target := .placed (p.takeResults kind none) } ∧ q.recordAt i = some r)

/-- The four totals of a record (01 R14). -/
def Record.totals (r : Record) : Nat × Int × Nat × Int := (r.logCount, r.produced, r.excessCount, r.excessLength)

/-- From `p` to `q` an arming occasion of the record `r` of a slot has been met (02 R37 to R40): where arming is not allowed the
record stands as `r`; else its first PENDING entry is ARMED and handed on, else a filler is placed and ARMED with FILLER raised,
else PLAN_EMPTY is raised and the blocks hold no entry. -/
def ArmingMet (i : Fin 8) (r : Record) (p q : Part) : Prop :=
  (r.mayArm = false →
      q.recordAt i = some r ∧ q.feed.held = p.feed.held ∧ q.feed.corrections = p.feed.corrections
        ∧ q.diameter.entry = p.diameter.entry
        ∧ q.raised .filler = p.raised .filler ∧ q.raised .planEmpty = p.raised .planEmpty)
    ∧ (r.mayArm = true → ∀ e es, armFirst r.entries = some (e, es) →
        q.recordAt i = some { r with entries := es } ∧ q.feed.held = some e.heldEntry ∧ q.feed.corrections = 0
          ∧ q.diameter.entry = some e.plan.minDia
          ∧ q.raised .filler = p.raised .filler ∧ q.raised .planEmpty = p.raised .planEmpty)
    ∧ (r.mayArm = true → armFirst r.entries = none → p.setting 6 = 1 → r.entries.length < 12 →
        let filler : Entry :=
          { ident := r.nextIdent, state := .armed, results := none
            plan := { target := p.setting 7, minus := (p.setting 8).toNat, plus := (p.setting 8).toNat, minDia := none
                      assort := 255, origin := .filler } }
        q.recordAt i = some { r with
            entries := r.entries ++ [filler], nextIdent := r.nextIdent + 1, revision := r.revision + 1 }
          ∧ q.feed.held = some filler.heldEntry ∧ q.feed.corrections = 0 ∧ q.diameter.entry = some none
          ∧ q.raised .filler = true ∧ q.raised .planEmpty = p.raised .planEmpty)
    ∧ (r.mayArm = true → armFirst r.entries = none → p.setting 6 ≠ 1 ∨ 12 ≤ r.entries.length →
        q.recordAt i = some r ∧ q.feed.held = none ∧ q.diameter.entry = none
          ∧ q.raised .planEmpty = true ∧ q.raised .filler = p.raised .filler)

/-- From `p` to `q` the record of a slot, which a log cut of an actual length has left as `r`, has been followed up (02 R45, R49):
ACTIVE with its top seen it is FINISHED with the remnant that the log leaves (01 R20), else ACTIVE it is armed, else it stays. -/
def LogFollowed (i : Fin 8) (r : Record) (actual : Int) (p q : Part) : Prop :=
  let left : Int := max 0 (r.held.getD 0 - actual)
  (r.state ≠ .active → q.recordAt i = some r)
    ∧ (r.state = .active → r.topSeen = false → ArmingMet i r p q)
    ∧ (r.state = .active → r.topSeen = true →
        q.recordAt i = some { r with
            state := .finished, entries := r.entries.map skipEntry, held := none, topRemnant := some left }
          ∧ q.feed.value = .idle ∧ q.feed.state = .idle ∧ q.feed.held = none
          ∧ (p.link.busOff = false → p.link.sendList.length < 15 →
              SendItem.notice (.stemState (p.stemId i) .finished .top r.dropCount (some left)) ∈ q.link.sendList))

/-- From `p` to `q` the CUT_DONE notice of the bound cut has been placed first (02 R50), with the revision and log count of the
record `r` that the completion leaves before any arming (log 30). -/
def CutDoneSent (b : BoundCut) (r : Record) (outcome : CutOutcome) (index : Option Nat) (actual : Option Int)
    (flags : Option ResultFlags) (p q : Part) : Prop :=
  p.link.busOff = false → p.link.sendList.length < 16 → ∃ rest : List SendItem,
    q.link.sendList = (p.link.sendList
      ++ [SendItem.notice (.cutDone (p.stemId b.slot) outcome index b.kind actual flags r.revision r.logCount)]) ++ rest

/-- A place directly after the last DONE entry of a list, the front where there is none (02 R43). -/
def AfterLastDone (k : Nat) (es : List Entry) : Prop :=
  k ≤ es.length ∧ (∀ e ∈ es.drop k, e.state ≠ .done) ∧ (k = 0 ∨ ∃ e, es[k - 1]? = some e ∧ e.state = .done)

/-- From `p` to `q` the bound cut has completed (01 R12 to R16; 02 R43 to R50; 03 R64): binding and carry have ended; the cut is
recorded in its entry, in a new one after the last DONE entry, or in excess, and counted; CUT_DONE is placed; what follows a log
or an established reference has followed; and the log position of an ACTIVE record that stays ACTIVE is the carry's. -/
def CutCompleted (p q : Part) : Prop :=
  q.table.bound = none
    ∧ (p.table.bound = none → q.table = p.table)
    ∧ ∀ b r, p.table.bound = some b → p.recordAt b.slot = some r →
      OtherSlotsKept p q b.slot
        ∧ (∀ prof d, b.target = .reference prof d →
            let r' : Record := { r with
              reference := if r.state = .active then .cut else r.reference
              felled := r.felled || prof == .fellProcess
              stump := if prof = .fellProcess ∧ r.felled = false then some (d.getD 0) else r.stump }
            (r.state = .active → ArmingMet b.slot r' p q) ∧ (r.state ≠ .active → q.recordAt b.slot = some r')
              ∧ CutDoneSent b r' .reference none none none p q)
        ∧ (∀ ident x, b.target = .entry ident x →
            let x' := x.atCompletion (r.state == .dropped)
            ∀ es, changeFirst ident .cutting (fun e => { e with state := .done, results := some x' }) r.entries = some es →
              let r' : Record := { r with entries := es, logCount := r.logCount + 1, produced := r.produced + x.actual }
              LogFollowed b.slot r' x.actual p q
                ∧ CutDoneSent b r' .entry (indexOf ident es) (some x.actual) (some x'.flags) p q)
        ∧ (∀ x, b.target = .placed x → r.entries.length < 12 →
            let x' := x.atCompletion (r.state == .dropped)
            let k := afterDone r.entries
            let new : Entry :=
              { ident := r.nextIdent, state := .done, results := some x'
                plan := { target := x.actual, minus := 0, plus := 0, minDia := none, assort := 254
                          origin := if b.kind = .manual then .manual else .direct } }
            let r' : Record := { r with
              entries := r.entries.insertIdx k new, nextIdent := r.nextIdent + 1, revision := r.revision + 1
              logCount := r.logCount + 1, produced := r.produced + x.actual }
            AfterLastDone k r.entries ∧ LogFollowed b.slot r' x.actual p q
              ∧ CutDoneSent b r' .entry (some k) (some x.actual) (some x'.flags) p q)
        ∧ (∀ x, b.target = .placed x → 12 ≤ r.entries.length → r.excessCount < 255 →
            let r' : Record := { r with
              logCount := r.logCount + 1, produced := r.produced + x.actual
              excessCount := r.excessCount + 1, excessLength := r.excessLength + x.actual }
            LogFollowed b.slot r' x.actual p q ∧ CutDoneSent b r' .excess none (some x.actual) none p q)
        ∧ (∀ x, b.target = .placed x → 12 ≤ r.entries.length → 255 ≤ r.excessCount →
            LogFollowed b.slot r x.actual p q ∧ CutDoneSent b r .excessUncounted none (some x.actual) none p q)
        ∧ (r.state ≠ .active → q.length.carry = none ∧ q.length.logPos = p.length.logPos)
        ∧ (r.state = .active → ∀ c, p.length.carry = some c →
            q.length.carry = none ∧ q.diameter.mid.capture = none
              ∧ (q.isActive b.slot = true → q.length.logPos = some c.pos ∧ q.length.history = some c.log))

/-- From `p` to `q` the cut in flight has aborted (02 R48, 03 R65): binding and carry have ended; a CUTTING entry is ARMED again in
an ACTIVE record and handed on with its correction count, PENDING in another; an abort that had made nothing CUTTING changes no
entry. -/
def CutAborted (p q : Part) : Prop :=
  q.table.bound = none ∧ q.length.carry = none ∧ q.length.logPos = p.length.logPos ∧ q.length.history = p.length.history
    ∧ (p.table.bound = none → q.table.slots = p.table.slots)
    ∧ (∀ b, p.table.bound = some b → OtherSlotsKept p q b.slot
        ∧ (∀ prof d, b.target = .reference prof d → q.table.slots = p.table.slots ∧ q.feed.held = p.feed.held)
        ∧ (∀ x, b.target = .placed x → q.table.slots = p.table.slots ∧ q.feed.held = p.feed.held))
    ∧ ∀ b r ident x es, p.table.bound = some b → p.recordAt b.slot = some r → b.target = .entry ident x →
        changeFirst ident .cutting (fun e =>
          { e with state := if r.state = .active then .armed else .pending }) r.entries = some es →
        q.recordAt b.slot = some { r with entries := es } ∧ q.feed.corrections = p.feed.corrections
          ∧ (r.state = .active → q.feed.held = (findState .armed es).map (fun x => x.2.heldEntry))
          ∧ (r.state ≠ .active → q.feed.held = p.feed.held)

/-! ### Counts and changes of scale -/

/-- From `p` to `q` a change of the selected source, or of its pitch or correction in force, has marked the log history and the
carry MIXED and nothing else has changed them (03 R59); a change of any pitch or correction in force has discarded the slip
window (03 R68; that one may open again at once: log 37). -/
def Rescaled (p q : Part) : Prop :=
  let mark (h : LogHistory) : LogHistory := if p.inForce = q.inForce then h else { h with mark := .mixed }
  q.length.history = p.length.history.map mark
    ∧ q.length.carry = p.length.carry.map (fun c => { c with log := mark c.log })
    ∧ (p.scales = q.scales →
        q.length.slip = if q.slipRuns then some (p.length.slip.getD { wheel := 0, roller := 0 }) else none)
    ∧ (p.scales ≠ q.scales → q.length.slip = if q.slipRuns then some { wheel := 0, roller := 0 } else none)

/-- From `p` to `q` a count has done the work of the head, free values drawn aside. -/
def CountWork (p q : Part) : Prop := HeadWork { p with draws := q.draws } q

/-- A log position or carry position once a count has moved it, held within its range (03 R61, R63). -/
def movedTo (d x : Int) : Int := max (-1000000) (min 40000000 (x + d))

/-- The log position in µm that a count of `d` leaves (03 R61). -/
def Part.movedPos (p : Part) (d : Int) : Option Int := p.length.logPos.map (movedTo d)

/-- The same in whole millimetres. -/
def Part.movedMm (p : Part) (d : Int) : Option Int := (p.movedPos d).map (·.tdiv 1000)

/-- Whether the pending end-sensor change qualifies in a count that moves the head travel counter by `d` (03 R73). -/
def Part.qualifies (p : Part) (d : Int) : Bool :=
  match p.length.endPending with
  | some noted => decide (5000 ≤ (p.length.head + d - noted).natAbs)
  | none => false

/-- From `p` to `q` a count of `d` of the selected source has moved the sampling distance, and taken the sample that was due
(04 R82). -/
def Sampled (d : Int) (p q : Part) : Prop :=
  (p.diameter.distance = none → q.diameter.distance = none ∧ q.diameter.samples = p.diameter.samples)
    ∧ ∀ x, p.diameter.distance = some x →
      (((x + d.natAbs : Nat) : Int) < p.setting 17 * 1000 →
          q.diameter.distance = some (x + d.natAbs) ∧ q.diameter.samples = p.diameter.samples)
        ∧ (p.setting 17 * 1000 ≤ ((x + d.natAbs : Nat) : Int) →
          q.diameter.distance = some 0 ∧ q.diameter.samples = (takeSample p).diameter.samples)

/-- From `p` to `q` the mid-diameter watch has taken the current diameter at the first forward crossing of half the target of
the ARMED entry last handed on, and at nothing else (04 R89; that an entry ARMED no more keeps its half target: log 32). -/
def MidWatched (d : Int) (p q : Part) : Prop :=
  (0 < d → p.diameter.mid.crossed = false →
      ∀ x t, p.length.logPos = some x → p.diameter.mid.target = some t →
        (x < 500 * t → 500 * t ≤ movedTo d x →
            q.diameter.mid = { p.diameter.mid with capture := q.currentDiameter, crossed := true })
          ∧ (500 * t ≤ x ∨ movedTo d x < 500 * t → q.diameter.mid = p.diameter.mid))
    ∧ (d ≤ 0 ∨ p.diameter.mid.crossed = true ∨ p.length.logPos = none
        ∨ p.diameter.mid.target = none → q.diameter.mid = p.diameter.mid)

/-- From `p` to `q` the creep watch has seen a count of `d`: more than CREEP_THRESHOLD from the creep start raises CREEP and flags
log and carry, once per interval (03 R72). -/
def CreepWatched (d : Int) (p q : Part) : Prop :=
  let same : Prop := q.raised .creep = p.raised .creep
    ∧ q.length.history.map (·.creep) = p.length.history.map (·.creep)
    ∧ q.length.carry.map (·.log.creep) = p.length.carry.map (·.log.creep)
  (p.length.creep = none → same)
    ∧ ∀ c, p.length.creep = some c →
      let far : Prop := p.speciesValue (·.creepThreshold) * 1000 < ((p.length.head + d - c.start).natAbs : Int)
      (c.found = false → far →
          q.raised .creep = true ∧ (∀ h, q.length.history = some h → h.creep = true)
            ∧ (∀ x, q.length.carry = some x → x.log.creep = true)
            ∧ (q.feed.state = p.feed.state → q.length.creep = some { c with found := true }))
        ∧ (c.found = true ∨ ¬far → same ∧ (q.feed.state = p.feed.state → q.length.creep = some c))

/-- From `p` to `q` the feed has compared a count of `d` of the selected source, by its state (05 R100, R102, R106, R108, R110,
R111; the position in whole millimetres: log 9); a count that does not move the log position is compared with no target. A sample of
the count that fails the minimum brings a hold (04 R92, 05 R120); where the feed reaches SETTLE in the same count the order is free
(04 R94; log 31). -/
def FeedCompared (d : Int) (p q : Part) : Prop :=
  let head := p.length.head + d
  let fails : Prop := p.diameter.hold = false ∧ q.thin = true
  let held : Prop := q.diameter.hold = true ∧ q.raised .diamReject = true
  let kept : Prop := q.diameter.hold = p.diameter.hold ∧ q.raised .diamReject = p.raised .diamReject
  q.feed.value = p.feed.value ∧ q.feed.held = p.feed.held ∧ q.feed.corrections = p.feed.corrections
    ∧ (p.feed.state.motion = false → q.feed = p.feed ∧ kept)
    ∧ (∀ w h, p.feed.watch = some w → p.feed.state.heading = some h → q.feed.state = p.feed.state →
        let gain : Int := if h = .forward then head - w.base else w.base - head
        q.feed.watch = if 5000 ≤ gain then some { base := head, elapsed := 0 } else some w)
    ∧ (∀ e pos, p.feed.held = some e → p.movedMm d = some pos →
        let stop := e.target - p.setting 9
        let near := e.target - p.speciesValue (·.approachDist)
        (p.feed.state = .feed ∨ p.feed.state = .approach → p.movedPos d = p.length.logPos →
            (¬fails → q.feed.state = p.feed.state ∧ kept) ∧ (fails → q.feed.state = q.decision ∧ held))
          ∧ (p.feed.state = .feed ∨ p.feed.state = .approach → p.movedPos d ≠ p.length.logPos →
            (stop ≤ pos → ¬fails → q.feed.state = .settle ∧ q.feed.settle = some 0 ∧ kept)
              ∧ (stop ≤ pos → fails → (q.feed.state = .settle ∧ kept) ∨ (q.feed.state = .settle ∧ held)
                  ∨ (q.feed.state = q.decision ∧ held))
              ∧ (pos < stop → ¬fails → q.feed.state = (if near ≤ pos then .approach else p.feed.state) ∧ kept)
              ∧ (pos < stop → fails → q.feed.state = q.decision ∧ held))
          ∧ (∀ h, p.feed.state = .correct h →
              q.feed.state = (if (h = .forward ∧ e.target ≤ pos) ∨ (h = .reverse ∧ pos ≤ e.target) then .settle else .correct h)
                ∧ kept)
          ∧ (∀ x, p.feed.stallPoint = some x →
              (p.feed.state = .recover .back → head < x + 200000 → pos < stop →
                  q.feed.state = .recover (if p.setting 12 * 1000 ≤ x - head then .forward else .back)
                    ∧ q.feed.attempts = p.feed.attempts ∧ q.feed.stallPoint = some x ∧ kept)
                ∧ (p.feed.state = .recover .forward →
                  (head < x + 200000 → pos < stop → q.feed.state = .recover .forward
                      ∧ q.feed.attempts = p.feed.attempts ∧ kept)
                    ∧ (x + 200000 ≤ head ∨ stop ≤ pos → q.feed.attempts = 0
                      ∧ (stop ≤ pos → q.feed.state = .settle ∧ kept)
                      ∧ (pos < stop → ¬fails → q.feed.state = (if near ≤ pos then .approach else .feed) ∧ kept)
                      ∧ (pos < stop → fails → q.feed.state = q.decision ∧ held)))))
    ∧ (∀ x, p.feed.state = .seek → p.feed.seekStart = some x →
        (x - head < p.setting 5 * 1000 → q.feed.state = .seek ∧ q.raised .noEnd = p.raised .noEnd)
          ∧ (p.setting 5 * 1000 ≤ x - head →
            q.feed.seekSpent = true ∧ q.feed.state = q.decision ∧ q.raised .noEnd = true))

/-- From `p` to `q` the guidance has tested a count of `d` of the selected source (08 R164): in MEASURE_ONLY the first count that
moves the log position, in whole millimetres (log 9), to within the window held announces it. -/
def GuidanceTested (d : Int) (p q : Part) : Prop :=
  let g := p.monitor.guidance
  let due : Prop := p.monitor.profile = .measureOnly ∧ p.hasActive = true ∧ g.window = true ∧ g.announced = false
    ∧ p.movedPos d ≠ p.length.logPos
  (¬due → q.monitor.guidance = g)
    ∧ (g.last = none ∨ p.movedMm d = none → q.monitor.guidance = g)
    ∧ ∀ x pos, g.last = some x → p.movedMm d = some pos →
      (due → x.2.target - x.2.minus ≤ pos → pos ≤ x.2.target + x.2.plus →
          q.monitor.guidance = { g with announced := true }
            ∧ (p.link.busOff = false → p.link.sendList.length < 15 → AtTargetSent x.1 x.2 pos p q))
        ∧ (pos < x.2.target - x.2.minus ∨ x.2.target + x.2.plus < pos → q.monitor.guidance = g)

/-- From `p` to `q` the end sensor has seen a count of `d` (03 R73 to R75): short of 5 mm its change stays pending; at 5 mm the
level is taken; covered to clear references the stem in reverse and reports the top forward, where R74, R75 and 01 R19 allow. -/
def EndSensed (d : Int) (p q : Part) : Prop :=
  (p.qualifies d = false → q.length.endPending = p.length.endPending ∧ q.length.endCovered = p.length.endCovered)
    ∧ (p.qualifies d = true → q.length.endPending = none ∧ q.length.endCovered = !p.length.endCovered)
    ∧ (p.qualifies d = true → p.length.endCovered = false → q.table = p.table ∧ q.length.logPos = p.movedPos d)
    ∧ ∀ noted, p.length.endPending = some noted → p.qualifies d = true → p.length.endCovered = true →
      ∀ i r, p.activeSlot = some i → p.recordAt i = some r → OtherSlotsKept p q i
        ∧ (let allowed : Prop := p.length.mirror = false ∧ (p.monitor.profile ≠ .fellProcess ∨ r.felled = true)
              ∧ p.boundTo i = false;
            p.length.head + d < noted →
              (allowed → q.length.logPos = some (-(p.endOffset * 1000)) ∧ q.length.mirror = true
                  ∧ q.length.history.map (·.raw) = some (-(p.endOffset * 1000))
                  ∧ (r.reference = .none → ArmingMet i { r with reference := .endSensed } p q))
                ∧ (¬allowed → q.table = p.table ∧ q.length.logPos = p.movedPos d))
        ∧ (noted < p.length.head + d →
            (r.reference = .none ∨ r.topSeen = true ∨ p.length.logPos = none →
                q.table = p.table ∧ q.length.logPos = p.movedPos d)
              ∧ ∀ pos, r.reference ≠ .none → r.topSeen = false → p.movedMm d = some pos →
                let left := pos + p.endOffset
                (p.topWaits i r left = true →
                    q.recordAt i = some { r with topSeen := true, held := some left } ∧ q.length.logPos = p.movedPos d)
                  ∧ (p.topWaits i r left = false →
                    q.recordAt i = some { r with
                        state := .finished, entries := r.entries.map skipEntry, held := none, topSeen := true
                        topRemnant := some left }
                      ∧ q.feed.value = .idle ∧ q.feed.state = .idle ∧ q.length.logPos = none))

/-- From `p` to `q` a count of the selected source has taken the stem on by `d` (03 R52, R61, R63, R67). -/
def Travelled (d : Int) (p q : Part) : Prop :=
  q.length.head = p.length.head + d ∧ (q.draws = p.draws ∨ q.draws = p.draws + 1) ∧ EndSensed d p q
    ∧ (p.qualifies d = false →
        q.length.logPos = p.movedPos d ∧ q.table = p.table ∧ q.length.mirror = p.length.mirror
          ∧ q.length.carry.map (·.pos) = p.length.carry.map (fun c => movedTo d c.pos)
          ∧ Sampled d p q ∧ MidWatched d p q ∧ CreepWatched d p q ∧ FeedCompared d p q ∧ GuidanceTested d p q)

/-- From `p` to `q` a count of the encoder that is not selected has left the stem where it was. -/
def NotTravelled (p q : Part) : Prop :=
  q.draws = p.draws ∧ q.table = p.table ∧ q.feed = p.feed ∧ q.diameter = p.diameter
    ∧ q.monitor.guidance = p.monitor.guidance ∧ q.length.head = p.length.head ∧ q.length.logPos = p.length.logPos
    ∧ q.length.mirror = p.length.mirror ∧ q.length.creep = p.length.creep ∧ q.length.endPending = p.length.endPending
    ∧ q.length.endCovered = p.length.endCovered ∧ q.length.carry.map (·.pos) = p.length.carry.map (·.pos)
    ∧ q.length.history.map (·.creep) = p.length.history.map (·.creep)
    ∧ q.length.carry.map (·.log.creep) = p.length.carry.map (·.log.creep)

/-- From `p` to `q` the raw wheel travel of log and carry has moved as given (03 R60, R63), and a change of the selected source, or
none, has marked them (03 R59). -/
def RawMoved (move : Int → Int) (p q : Part) : Prop :=
  q.length.history.map (·.raw) = p.length.history.map (fun h => move h.raw)
    ∧ q.length.carry.map (·.log.raw) = p.length.carry.map (fun c => move c.log.raw)
    ∧ (q.source = p.source →
        q.length.history.map (·.mark) = p.length.history.map (·.mark)
          ∧ q.length.carry.map (·.log.mark) = p.length.carry.map (·.log.mark))
    ∧ (q.source ≠ p.source →
        (∀ h, q.length.history = some h → h.mark = .mixed) ∧ ∀ c, q.length.carry = some c → c.log.mark = .mixed)

/-- From `p` to `q` a wheel count of `d` has moved the wheel sum of the slip window and, at 500 mm under a forward demand, closed
it and compared the sums (03 R68 to R70). -/
def SlipCompared (d : Int) (p q : Part) : Prop :=
  let same : Prop := q.raised .slip = p.raised .slip ∧ q.raised .wheelSuspect = p.raised .wheelSuspect
  (q.slipRuns = false → q.length.slip = none)
    ∧ (p.length.slip = none → same ∧ (q.slipRuns = true → q.length.slip = some { wheel := 0, roller := 0 }))
    ∧ ∀ w, p.length.slip = some w → q.feed.state.heading = some .forward →
      let sum := w.wheel + d
      let margin := p.speciesValue (·.slipTol) * 500
      (sum < 500000 → same ∧ q.length.slip = some { w with wheel := sum } ∧ q.length.suspect = p.length.suspect)
        ∧ (500000 ≤ sum →
          (margin < w.roller - sum →
              q.raised .slip = true ∧ q.raised .wheelSuspect = p.raised .wheelSuspect ∧ q.length.suspect = p.length.suspect
                ∧ (∀ h, q.length.history = some h → h.slip = true) ∧ (∀ c, q.length.carry = some c → c.log.slip = true)
                ∧ q.length.slip = some { wheel := 0, roller := 0 })
            ∧ (w.roller - sum ≤ margin → margin < sum - w.roller →
              q.raised .wheelSuspect = true ∧ q.raised .slip = p.raised .slip ∧ q.length.suspect = true
                ∧ q.length.slip = none)
            ∧ (w.roller - sum ≤ margin → sum - w.roller ≤ margin →
              same ∧ q.length.suspect = p.length.suspect ∧ q.length.slip = some { wheel := 0, roller := 0 }))

/-- From `p` to `q` a roller count of `d` has moved the roller sum of the slip window (03 R68). -/
def SlipSummed (d : Int) (p q : Part) : Prop :=
  q.length.slip =
    if q.slipRuns then
      some (match p.length.slip with
        | some w => { w with roller := w.roller + d }
        | none => { wheel := 0, roller := 0 })
    else none

/-! ### What a settled part holds -/

/-- The image holds the demands of the present states: the feed demand of 05 5.2 at the species' speeds read live (R122), the knife
demand with the demanded pressure (07 R153), the saw demand (06 R142). -/
def DemandsPlaced (p : Part) : Prop :=
  let slow := p.speciesValue (·.feedApproach)
  let fast := p.speciesValue (·.feedMax)
  let image := p.link.image
  (p.feed.state = .idle ∨ p.feed.state = .manual → image.feed = .none)
    ∧ (p.feed.state = .grip ∨ p.feed.state = .settle ∨ p.feed.state = .cutWait ∨ p.feed.state = .stalled → image.feed = .stop)
    ∧ (p.feed.state = .seek ∨ p.feed.state = .correct .reverse ∨ p.feed.state = .recover .back → image.feed = .reverse slow)
    ∧ (p.feed.state = .approach ∨ p.feed.state = .correct .forward → image.feed = .forward slow)
    ∧ (p.feed.state = .feed ∨ p.feed.state = .recover .forward → image.feed = .forward fast)
    ∧ (p.knife.state = .opened → image.knife = .opened)
    ∧ (p.knife.state = .yielded → image.knife = .none)
    ∧ (p.knife.state = .clamped ∨ p.knife.state = .relief ∨ p.knife.state = .boost →
        ∃ x, p.knife.pressure = some x ∧ image.knife = .clamp x)
    ∧ (p.saw.state = .parked ∨ p.saw.state = .fault → image.saw = .none)
    ∧ (p.saw.state = .advancing → image.saw = .advance)
    ∧ (p.saw.state = .returning ∨ p.saw.state = .jammed → image.saw = .back)
    ∧ (∀ c, p.saw.state = .manual → p.saw.cycle = some c → image.saw = if c.commanded then .none else .back)

/-- The drop timer runs exactly while a record is ACTIVE and the watched estimate, RL's or else that of the knife lines, lies below
DROP_DIAMETER (04 R90, R91). -/
def DropWatched (p : Part) : Prop :=
  let ka := p.estimate .ka
  let kb := p.estimate .kb
  let least := 1000 * p.setting 33
  let below : Prop :=
    (p.usable .rl = true ∧ p.estimate .rl < least)
      ∨ (p.usable .rl = false ∧ p.usable .ka = true ∧ p.usable .kb = true ∧ ka + kb < 2 * least)
      ∨ (p.usable .rl = false ∧ p.usable .ka = true ∧ p.usable .kb = false ∧ ka < least)
      ∨ (p.usable .rl = false ∧ p.usable .ka = false ∧ p.usable .kb = true ∧ kb < least)
  (p.hasActive = true → below → p.diameter.dropTimer ≠ none) ∧ (p.hasActive = false ∨ ¬below → p.diameter.dropTimer = none)

/-- A slip window is open exactly while the image demands forward, the wheel is valid and a record is ACTIVE (03 R57, R68). -/
def SlipWatched (p : Part) : Prop :=
  let runs : Prop := (p.link.image.feed = .forward (p.speciesValue (·.feedApproach))
      ∨ p.link.image.feed = .forward (p.speciesValue (·.feedMax)))
    ∧ p.length.contact = .seated ∧ p.length.suspect = false ∧ p.hasActive = true
  (runs → p.length.slip ≠ none) ∧ (¬runs → p.length.slip = none)

/-- What the end of every event leaves in a powered part: demands placed, drop timer and slip window as their conditions ask, no
thin stem fed without a hold (04 R92), READY once every enabled line is OK (04 R80), and no refresh timer where no frames are sent
(10 R200). -/
def WatchesKept (p : Part) : Prop :=
  DemandsPlaced p ∧ DropWatched p ∧ SlipWatched p
    ∧ (p.diameter.hold = false → p.feed.state = .feed ∨ p.feed.state = .approach → p.thin = false)
    ∧ ((∀ l, p.lineEnabled l = true → (p.line l).state = .ok) → p.boot.ready = true)
    ∧ (p.sendsValve = false → p.link.refresh = none)

/-! ### Timers (log 3) -/

/-- A timer has run its limit in ms. -/
def reached (timer : Option Nat) (limit : Int) : Prop := ∃ t, timer = some t ∧ limit ≤ (t : Int)

/-- The timer whose expiry a command is has run its limit: the spec's constant, or the setting read now. -/
def Part.hasRun (p : Part) : Instr → Prop
  | .startupDeadline => reached p.boot.elapsed 2000
  | .lineOutOfWindowExpiry l =>
    ((p.line l).state = .qualifying ∨ (p.line l).state = .ok) ∧ p.outOfWindow l ≠ none ∧ reached (p.line l).run 20
  | .lineInWindowExpiry l =>
    ((p.line l).state = .qualifying ∨ ∃ k, (p.line l).state = .fault k) ∧ p.outOfWindow l = none ∧ reached (p.line l).run 200
  | .gripSampleExpiry => reached p.diameter.gripWait 200
  | .dropTimerExpiry => reached p.diameter.dropTimer 300
  | .settleTimerExpiry => reached p.feed.settle (p.setting 10)
  | .stallTimerExpiry => reached (p.feed.watch.map (·.elapsed)) (p.setting 11)
  | .cutTimerExpiry => reached p.saw.cutTimer (p.setting 15)
  | .returnTimerExpiry => reached p.saw.returnTimer (p.setting 16)
  | .advanceExpectationExpiry => reached p.saw.expectation 500
  | .takeoverReleaseExpiry => ∃ t, p.monitor.takeover = .snooped t ∧ p.setting 39 ≤ (t : Int)
  | .valveRefreshExpiry => p.sendsValve = true ∧ reached p.link.refresh (p.setting 35)
  | .storeCompletion _ => reached p.store.inFlight 80
  | _ => False

/-! ### Invariants -/

/-- A powered part is settled: the end of an event has nothing left to do. The image holds the demands of the present states,
the knives have the state and pressure of their rules, no hold, drop timer or slip window is overdue, the lists keep their
limits. -/
def Settled (p : Part) : Prop := p.powered = true → conclude p p = p

/-- At most one record is ACTIVE (01 R7). -/
def OneActive (p : Part) : Prop := ∀ i j : Fin 8, p.isActive i = true → p.isActive j = true → i = j

/-- The actual length that an entry contributes to the totals: that of its results when DONE, else 0 (01 R14). -/
def Entry.counted (e : Entry) : Int := if e.state = .done then (e.results.map (·.actual)).getD 0 else 0

/-- Whether an entry counts as a log (01 R14). -/
def Entry.isLog (e : Entry) : Nat := if e.state = .done then 1 else 0

/-- The production totals agree with the cut list (01 R14). -/
def Record.totalled (r : Record) : Prop :=
  r.produced = (r.entries.map Entry.counted).sum + r.excessLength ∧ r.logCount = (r.entries.map Entry.isLog).sum + r.excessCount

/-- Every non-FREE record's totals agree with its cut list (01 R14). -/
def TotalsAgree (p : Part) : Prop := ∀ (i : Fin 8) (r : Record), p.recordAt i = some r → r.totalled

/-- A cut list holds at most 12 entries (02 R26). -/
def ListsBounded (p : Part) : Prop := ∀ (i : Fin 8) (r : Record), p.recordAt i = some r → r.entries.length ≤ listLimit

/-- A feed in a motion state or in SETTLE has the saw PARKED, no takeover in force, a working profile and an ACTIVE record,
and a cut request stands only in CUT_WAIT (05 R122, R104). -/
def MotionGuarded (p : Part) : Prop :=
  (p.feed.state.motion = true ∨ p.feed.state = .settle →
    p.saw.state = .parked ∧ p.monitor.takeover.inForce = false ∧ p.monitor.profile.works = true ∧ p.hasActive = true)
  ∧ (p.feed.request ≠ .none → p.feed.state = .cutWait)

/-- A copy of the settings and species holds every value within its range (09 R173, R183). -/
def Copy.inRange (c : Copy) : Prop :=
  (∀ n : Fin 40, settingInRange n c.settings[n] = true) ∧ ∀ k : Fin 32, c.species[k].inRange = true

/-- The working copy, and the stored copy while it is sound, hold every value within its range (09 R173, R183, R185). -/
def CopiesInRange (p : Part) : Prop := p.store.working.inRange ∧ (p.store.sound = true → p.store.stored.inRange)

/-- The queue holds at most 4 requests and the send list at most 16 frames; in bus-off the list is empty and no valve command
frame waits (10 R191, R194, R201). -/
def QueuesBounded (p : Part) : Prop :=
  p.link.requests.length ≤ 4 ∧ p.link.sendList.length ≤ 16
    ∧ (p.link.busOff = true → p.link.sendList = [] ∧ p.link.valve = none)

/-- Every species code named by a stem record is the code of a valid species record (01 R6). -/
def SpeciesNamedValid (p : Part) : Prop := ∀ (i : Fin 8) (r : Record), p.recordAt i = some r → (p.species r.species).valid = true

end Sys2Proof.Machine
end

