-- ==== Sys2Proof/Certificates/Slice0/Obligations.lean ====
section
/-! DEFINITION. The statements for the provers: what each command does, when it completes, what it leaves unchanged, and the
invariants that every step keeps. -/

open Sys2Proof Sys2Proof.Machine

/-! ### The queue, power, start-up -/

/-- A step takes the command at the front of the queue. -/
def Obligations.StepTakesFrontCommand : Prop :=
  ∀ (c : Instr) (p : Part) (rest : List Instr),
    step { part := p, pending := c :: rest } = exec c { part := p, pending := rest }

/-- On an empty queue the part takes its head request, else an expired timer, else one millisecond passes: every running timer is one
more, and nothing else changes (the model's choice, log 3); an unpowered part does nothing. With no request to take it has a
command of its own exactly where a timer has run its limit. (Of several, which one: log 5. The results of a store: log 15. A line
in FAULT or QUALIFYING times its run too: log 19.) -/
def Obligations.EmptyQueueStep : Prop :=
  ∀ p : Part,
    (p.powered = false → step { part := p, pending := [] } = .next { part := p, pending := [] })
      ∧ (∀ code tag args rest, p.heads code tag args rest →
          step { part := p, pending := [] } = exec (requestRow code) { part := p, pending := [] })
      ∧ (∀ bs rest, p.powered = true → p.boot.resetPending = none → p.link.sendList.length < 16 →
          p.link.requests = bs :: rest → bs.length < 2 →
          step { part := p, pending := [] } = exec .badRequest { part := p, pending := [] })
      ∧ (∀ c, p.own = some c → step { part := p, pending := [] } = exec c { part := p, pending := [] })
      ∧ (p.powered = true → p.boot.resetPending ≠ none ∨ 16 ≤ p.link.sendList.length ∨ p.link.requests = [] →
          (∀ c, p.own = some c → p.hasRun c) ∧ (p.own = none → ∀ c, ¬p.hasRun c))
      ∧ (p.powered = true → p.own = none → ∃ q, step { part := p, pending := [] } = .next { part := q, pending := [] }
          ∧ q = { p with
            boot := { p.boot with elapsed := p.boot.elapsed.map (· + 1) }
            diameter := { p.diameter with
              lines := q.diameter.lines
              gripWait := p.diameter.gripWait.map (· + 1), dropTimer := p.diameter.dropTimer.map (· + 1) }
            feed := { p.feed with
              settle := p.feed.settle.map (· + 1)
              watch := p.feed.watch.map fun w => { w with elapsed := w.elapsed + 1 } }
            saw := { p.saw with
              cutTimer := p.saw.cutTimer.map (· + 1), returnTimer := p.saw.returnTimer.map (· + 1)
              expectation := p.saw.expectation.map (· + 1) }
            monitor := { p.monitor with takeover := match p.monitor.takeover with
              | .snooped t => .snooped (t + 1)
              | t => t }
            store := { p.store with inFlight := p.store.inFlight.map (· + 1) }
            link := { p.link with refresh := p.link.refresh.map (· + 1) } }
          ∧ ∀ l, ((p.line l).state = .disabled → q.line l = p.line l)
            ∧ ((p.line l).state ≠ .disabled → q.line l = { p.line l with run := some ((p.line l).run.getD 0 + 1) }))

/-- Every command answers a next state in every state, with the queue as it was: the model's choice that nothing stops the part
(log 25). -/
def Obligations.EveryCommandAnswersNext : Prop := ∀ (c : Instr) (s : State), ∃ q, Runs c s q

/-- An unpowered part changes by no command but POWER_ON and LOSS_OF_POWER, save for the levels at its pins (log 7). -/
def Obligations.UnpoweredPartOnlySensesItsPins : Prop :=
  ∀ (c : Instr) (s : State) (q : Part), s.part.powered = false → (∀ x, c ≠ .powerOn x) → c ≠ .lossOfPower → Runs c s q →
    q = { s.part with pins := q.pins }

/-- LOSS_OF_POWER: the part stops; a store in flight is cut off and leaves the stored copy unsound. POWER_ON: every block takes its
reset state over the copy that is loaded, and STORE_FAULT is raised for an unsound one.
(A POWER_ON on a powered part is a power cycle: the model's choice, log 7.) -/
def Obligations.PowerGoesAndComes : Prop :=
  ∀ s : State, Runs .lossOfPower s { s.part with
      powered := false
      store := { s.part.store with sound := s.part.store.sound && s.part.store.inFlight.isNone, inFlight := none } }
  ∧ ∀ straps : BitVec 2, ∃ q, Runs (.powerOn straps) s q
    ∧ q.powered = true
    ∧ Restarted { s.part with pins := { s.part.pins with straps } } q
    ∧ q.store = { s.part.store.cutOff with
        working := if s.part.store.cutOff.sound then s.part.store.stored else .builtIn }
    ∧ (s.part.store.cutOff.sound = true → q.link.conditions = 0 ∧ q.link.sendList = [])
    ∧ (s.part.store.cutOff.sound = false →
        q.link.conditions = Condition.storeFault.word
          ∧ q.link.sendList = [.notice (.condition Condition.storeFault.word Condition.storeFault.word)])

/-- STARTUP_DEADLINE: lines still QUALIFYING go to FAULT with the kind of R80, LINE_FAULT is raised, and the part enters READY;
once READY the command changes nothing. (The last: log 17.) -/
def Obligations.StartupDeadlineEntersReady : Prop :=
  ∀ s : State, Settled s.part → s.part.powered = true →
    (s.part.boot.ready = true → Runs .startupDeadline s s.part)
    ∧ (s.part.boot.ready = false → ∃ q, Runs .startupDeadline s q
        ∧ Follows { s.part with
            boot := { s.part.boot with ready := true, elapsed := none }
            diameter := { s.part.diameter with lines := q.diameter.lines } } q
        ∧ q.boot.ready = true ∧ q.feed = s.part.feed ∧ RaisesOnly [.lineFault] s.part q
        ∧ ∀ l : Line,
            (s.part.lineEnabled l = true → (s.part.line l).state = .qualifying →
              q.raised .lineFault = true
                ∧ (q.line l).state = .fault (match s.part.outOfWindow l, (s.part.line l).lastOut with
                    | some k, _ => k
                    | none, some k => k
                    | none, none => .shorted))
            ∧ (s.part.lineEnabled l = false ∨ (s.part.line l).state ≠ .qualifying → q.line l = s.part.line l))

/-! ### Requests -/

/-- REQUEST_FRAME: a frame on the request identifier joins the end of the queue, or is discarded with OVERRUN while the queue
holds 4; a frame that is no request changes nothing. -/
def Obligations.RequestFrameJoinsQueue : Prop :=
  ∀ (f : BusFrame) (s : State), Settled s.part → s.part.powered = true →
    (f.id = requestId s.part.link.node → f.remote = false → s.part.link.busOff = false →
      (s.part.link.requests.length < 4 → Runs (.requestFrame f) s
        { s.part with link := { s.part.link with requests := s.part.link.requests ++ [f.data] } })
      ∧ (4 ≤ s.part.link.requests.length → Runs (.requestFrame f) s
        { s.part with link := { s.part.link with
            conditions := s.part.link.conditions ||| Condition.overrun.word
            sendList := s.part.announced .overrun s.part.link.sendList } }))
    ∧ (f.id ≠ requestId s.part.link.node ∨ f.remote = true ∨ s.part.link.busOff = true →
        Runs (.requestFrame f) s s.part)

/-- Screening: a frame too short for code and tag, an unknown code, and a frame too short for its arguments are taken and
answered BAD_REQUEST; while NOT_READY every request but five is answered NOT_READY; nothing else changes. -/
def Obligations.ScreeningComesFirst : Prop :=
  ∀ s : State, Settled s.part → s.part.powered = true → s.part.boot.resetPending = none →
    s.part.link.sendList.length < 16 →
    (∀ bs rest, s.part.link.requests = bs :: rest → bs.length < 2 →
      Runs .badRequest s (s.part.withAnswer { code := 0, tag := 0, answer := .badRequest, results := [] } rest))
    ∧ (∀ code tag args rest, s.part.link.requests = (code :: tag :: args) :: rest → code ∉ requestCodes →
      Runs .badRequest s (s.part.withAnswer { code, tag, answer := .badRequest, results := [] } rest))
    ∧ (∀ code tag args rest, s.part.link.requests = (code :: tag :: args) :: rest → code ∈ requestCodes →
      args.length < argLength code args →
      Runs (requestRow code) s (s.part.withAnswer { code, tag, answer := .badRequest, results := [] } rest))
    ∧ (∀ code tag args rest, s.part.link.requests = (code :: tag :: args) :: rest → code ∈ requestCodes →
      argLength code args ≤ args.length → s.part.boot.ready = false →
      code ≠ 0x01 → code ≠ 0x02 → code ≠ 0x20 → code ≠ 0x28 → code ≠ 0x30 →
      Runs (requestRow code) s (s.part.withAnswer { code, tag, answer := .notReady, results := [] } rest))

/-- Every request's owner applies its table: the first test that fails gives the answer and nothing else changes; with no
failing test the request is taken and answered OK. (The answer of a RESET in bus-off is discarded with the queue. That READ_ENTRIES
tests the start index before the count: log 33.) -/
def Obligations.RequestsAnsweredByTheirTables : Prop :=
  ∀ (s : State) (code tag : Byte) (args : List Byte) (rest : List (List Byte)), Settled s.part →
    s.part.offers code tag args rest → code ∈ requestCodes → argLength code args ≤ args.length →
    (∀ a, s.part.refusal code args = some a →
      Runs (requestRow code) s (s.part.withAnswer { code, tag, answer := a, results := [] } rest))
    ∧ (s.part.refusal code args = none → code ≠ 0x30 ∨ s.part.link.busOff = false →
      ∃ q results, Runs (requestRow code) s q ∧ s.part.replies q (okAnswer code tag results) rest)

/-- STATUS, READ_STEM, READ_ENTRIES, READ_SPECIES and READ_SETTING answer one snapshot and change nothing else. (That bits 3 to 7 of
the record flags in the stem header image are 0: the model's choice, log 36.) -/
def Obligations.ReadingRequestsAnswerASnapshot : Prop :=
  ∀ (s : State) (tag : Byte) (args : List Byte) (rest : List (List Byte)), Settled s.part →
    (s.part.granted 0x01 tag args rest →
      Runs .status s (s.part.withAnswer (okAnswer 0x01 tag (statusImage s.part)) rest))
    ∧ (∀ i r, s.part.granted 0x14 tag args rest → s.part.lookup (readStem args) = some i → s.part.recordAt i = some r →
      Runs .readStem s (s.part.withAnswer (okAnswer 0x14 tag (stemHeaderImage (s.part.stemId i) r
        (if r.state = .active ∧ r.reference ≠ .none then s.part.logMm else none)
        (if r.state = .active then s.part.currentDiameter else none))) rest))
    ∧ (∀ i r, s.part.granted 0x15 tag args rest → s.part.lookup (readStem args) = some i → s.part.recordAt i = some r →
      Runs .readEntries s (s.part.withAnswer (okAnswer 0x15 tag
        (word16 r.revision ++ u8 r.entries.length
          ++ u8 (min (readU8 args 3) (r.entries.length - readU8 args 2) : Nat)
          ++ entryImages (readU8 args 2) ((r.entries.drop (readU8 args 2)).take (readU8 args 3)))) rest))
    ∧ (∀ c, s.part.granted 0x20 tag args rest → speciesCode (readU8 args 0) = some c →
      Runs .readSpecies s (s.part.withAnswer (okAnswer 0x20 tag
        (u8 c.val ++ yesNo (s.part.species c).valid ++ yesNo (s.part.named c) ++ speciesImage (s.part.species c))) rest))
    ∧ (∀ n, s.part.granted 0x28 tag args rest → settingNumber (readU8 args 0) = some n →
      Runs .readSetting s (s.part.withAnswer (okAnswer 0x28 tag (u8 n.val ++ u16 (s.part.setting n))) rest))

/-- READ_CONDITIONS answers the word as it stood and clears the conditions of its mask; SET_MASKS replaces the mask and answers the
mask now held. -/
def Obligations.ConditionRequestsReadClearAndMask : Prop :=
  ∀ (s : State) (tag : Byte) (args : List Byte) (rest : List (List Byte)), Settled s.part →
    (s.part.granted 0x02 tag args rest →
      Runs .readConditions s ({ s.part with link := { s.part.link with
        conditions := s.part.link.conditions &&& ~~~ readWord args 0 } }.withAnswer
          (okAnswer 0x02 tag (word16 s.part.link.conditions)) rest))
    ∧ (s.part.granted 0x03 tag args rest →
      Runs .setMasks s ({ s.part with link := { s.part.link with mask := readWord args 0 } }.withAnswer
        (okAnswer 0x03 tag (word16 (readWord args 0))) rest))

/-- Raising a condition latches it and no other; a notice follows where it was clear and its mask bit is clear. -/
def Obligations.RaisingLatchesAndAnnounces : Prop :=
  ∀ (c : Condition) (p : Part),
    (raise c p).raised c = true ∧ RaisesOnly [c] p (raise c p)
    ∧ raise c p = { p with link := { p.link with
        conditions := (raise c p).link.conditions, sendList := (raise c p).link.sendList } }
    ∧ (p.raised c = false → p.link.mask.getLsbD c.bit = false → (raise c p).link.sendList =
        p.link.sendList ++ [.notice (.condition c.word (raise c p).link.conditions)])
    ∧ (p.raised c = true ∨ p.link.mask.getLsbD c.bit = true → (raise c p).link.sendList = p.link.sendList)

/-! ### Requests on the head -/

/-- SET_PROFILE sets the profile and the feed value, ends a takeover, clears stick image, expectation, override and pending
direct cut, builds the release frame or the first frame, and in MEASURE_ONLY announces a held window that the position lies in.
(That the position is compared with the window in whole millimetres is the model's reading, log 9.) -/
def Obligations.SetProfileSetsAllInOneStep : Prop :=
  ∀ (s : State) (tag : Byte) (args : List Byte) (rest : List (List Byte)) (n : Profile), Settled s.part →
    s.part.granted 0x04 tag args rest → Profile.ofCode (readU8 args 0) = some n →
    let value : FeedValue := if n.works && s.part.hasActive then .grip else .idle
    ∃ q, Runs .setProfile s q
      ∧ s.part.replies q (okAnswer 0x04 tag
          ([n.code, value.code] ++ yesNo s.part.monitor.takeover.inForce)) rest
      ∧ q.monitor.profile = n ∧ q.monitor.takeover = .none ∧ q.monitor.stick = none
      ∧ q.saw = { s.part.saw with expectation := none } ∧ q.knife.override = none
      ∧ q.feed.value = value ∧ q.feed.state = (if n.works && s.part.hasActive then .grip else .idle)
      ∧ q.feed.pendingDirect = false ∧ q.feed.request = .none ∧ q.feed.seekSpent = false ∧ q.feed.stallOut = false
      ∧ q.feed.held = s.part.feed.held ∧ q.feed.corrections = s.part.feed.corrections
      ∧ q.link.conditions = s.part.link.conditions
      ∧ (s.part.sendsValve = true → n.works = false →
          q.link.valve = some { id := s.part.valveId, data := [0, 0, 0, 0, 0] } ∧ q.link.refresh = none)
      ∧ (s.part.sendsValve = false → n.works = true → s.part.link.busOff = false →
          q.link.valve = some { id := s.part.valveId, data := valveData q.link.image } ∧ q.link.refresh = some 0)
      ∧ (s.part.sendsValve = false → n.works = false → q.link.valve = s.part.link.valve)
      ∧ Follows { s.part with
          monitor := q.monitor, saw := q.saw
          link := { s.part.link with requests := rest } } q
      ∧ q.monitor.guidance = { s.part.monitor.guidance with announced := q.monitor.guidance.announced }
      ∧ (s.part.monitor.guidance.window = false ∨ s.part.monitor.guidance.last = none →
          q.monitor.guidance = s.part.monitor.guidance)
      ∧ ∀ x, s.part.monitor.guidance.window = true → s.part.monitor.guidance.last = some x →
          q.monitor.guidance.announced = (s.part.monitor.guidance.announced || s.part.atTarget n x.2)
            ∧ ∀ pos, s.part.logMm = some pos → s.part.monitor.guidance.announced = false → s.part.atTarget n x.2 = true →
                s.part.link.busOff = false → s.part.link.sendList.length < 15 → AtTargetSent x.1 x.2 pos s.part q

/-- SET_FEED sets the value; IDLE and GRIP withdraw and decide afresh, but for a cut the saw has taken; RUN clears the marks and
restarts a feed in IDLE, GRIP or STALLED; a thin stem that it would feed is held at once. -/
def Obligations.SetFeedSetsTheValue : Prop :=
  ∀ (s : State) (tag : Byte) (args : List Byte) (rest : List (List Byte)) (v : FeedValue), Settled s.part →
    s.part.granted 0x05 tag args rest → FeedValue.ofCode (readU8 args 0) = some v →
    ∃ q, Runs .setFeed s q ∧ s.part.replies q (okAnswer 0x05 tag []) rest ∧ Follows (s.part.took rest) q
      ∧ q.feed.value = v ∧ q.feed.held = s.part.feed.held ∧ q.feed.corrections = s.part.feed.corrections
      ∧ (v ≠ .run → s.part.feed.cutTaken = false →
          q.feed.pendingDirect = false ∧ (∀ k, q.feed.request ≠ .waiting k)
            ∧ q.feed.state =
                if s.part.monitor.takeover.inForce then .manual else if v = .grip then .grip else .idle)
      ∧ (v ≠ .run → s.part.feed.cutTaken = true →
          q.feed.pendingDirect = false ∧ q.feed.state = .cutWait ∧ q.feed.request = s.part.feed.request)
      ∧ (v = .run →
          q.feed.seekSpent = false ∧ q.feed.stallOut = false
            ∧ (s.part.feed.state = .idle ∨ s.part.feed.state = .grip ∨ s.part.feed.state = .stalled →
                q.feed.state = q.decision)
            ∧ (s.part.feed.state ≠ .idle → s.part.feed.state ≠ .grip → s.part.feed.state ≠ .stalled →
                q.feed.state = s.part.feed.state))
      ∧ HoldTested s.part.diameter.hold s.part q ∧ RaisesOnly [.diamReject] s.part q

/-- Deciding afresh withdraws a direct cut not yet at its cut start and enters the state of the decision table, row by row; the
placement test, for row 12 and at the success of a recovery, chooses by the log position (in whole millimetres: log 9). -/
def Obligations.DecisionTableRows : Prop :=
  ∀ p : Part,
    (feedDecide p).feed.state = p.decision
    ∧ feedDecide p = enterFeed p.decision { p with feed := p.feed.withdraw }
    ∧ (p.feed.state = .recover .forward → p.recoverySucceeds = true → (recoveryCheck p).feed.state = p.placement)
    ∧ (∀ e pos, p.feed.held = some e → p.logMm = some pos →
        (e.target - p.setting 9 ≤ pos → p.placement = .settle)
        ∧ (pos < e.target - p.setting 9 → e.target - p.speciesValue (·.approachDist) ≤ pos → p.placement = .approach)
        ∧ (pos < e.target - p.setting 9 → pos < e.target - p.speciesValue (·.approachDist) → p.placement = .feed))
    ∧ (p.hasActive = false ∨ p.monitor.profile.works = false → p.decision = .idle)
    ∧ ∀ r, p.activeRecord = some r → p.monitor.profile.works = true →
      (p.monitor.takeover.inForce = true → p.decision = .manual)
      ∧ (p.monitor.takeover.inForce = false →
        (p.feed.value = .idle → p.decision = .idle)
        ∧ (p.feed.value = .grip → p.decision = .grip)
        ∧ (p.feed.value = .run →
          (p.feed.stallOut = true → p.decision = .stalled)
          ∧ (p.feed.stallOut = false → p.saw.state ≠ .parked → p.decision = .grip)
          ∧ (p.feed.stallOut = false → p.saw.state = .parked → p.diameter.hold = true → p.decision = .grip)
          ∧ (p.feed.stallOut = false → p.saw.state = .parked → p.diameter.hold = false →
            (r.reference = .none → p.monitor.profile = .fellProcess → r.felled = false → p.decision = .grip)
            ∧ (r.reference = .none → p.feed.seekSpent = true → p.decision = .grip)
            ∧ (r.reference = .none → (p.monitor.profile ≠ .fellProcess ∨ r.felled = true) → p.feed.seekSpent = false →
                p.decision = .seek)
            ∧ (r.reference ≠ .none → p.feed.held = none → p.decision = .grip)
            ∧ (r.reference ≠ .none → p.feed.held ≠ none → p.decision = p.placement))))

/-- KNIFE_OVERRIDE sets or clears the override and recomputes the pressure of the present state; the knife state stays. An argument
above 100 that is not clear is refused BAD_ARGUMENT, and nothing changes. -/
def Obligations.KnifeOverrideRecomputesPressure : Prop :=
  ∀ (s : State) (tag : Byte) (args : List Byte) (rest : List (List Byte)), Settled s.part →
    s.part.offers 0x06 tag args rest → args ≠ [] →
    let v : Option Int := if readU8 args 0 = 255 then none else some (readU8 args 0)
    (100 < readU8 args 0 → readU8 args 0 ≠ 255 → Runs .knifeOverride s
      (s.part.withAnswer { code := 0x06, tag, answer := .badArgument, results := [] } rest))
    ∧ (readU8 args 0 ≤ 100 ∨ readU8 args 0 = 255 → ∃ q, Runs .knifeOverride s q
      ∧ q.knife = { state := s.part.knife.state, override := v, pressure := q.knife.pressure }
      ∧ (s.part.knife.state = .opened ∨ s.part.knife.state = .yielded → q.knife.pressure = none)
      ∧ (s.part.knife.state ≠ .opened → s.part.knife.state ≠ .yielded → q.knife.pressure =
          some (match v with
            | some x => min x s.part.knifeLimit
            | none => s.part.computedPressure s.part.knife.state))
      ∧ ValveOnly ({ s.part with knife := q.knife }.withAnswer (okAnswer 0x06 tag
          (optU8 v ++ [s.part.knife.state.code] ++ optU8 q.knife.pressure)) rest) q)

/-- The knives of a settled part have the state of the table of R146 and the pressure of R148, R149 and R152, never above
KNIFE_LIMIT. -/
def Obligations.KnivesFollowTheirRules : Prop :=
  ∀ p : Part, Settled p → p.powered = true → CopiesInRange p →
    let d : Int := (p.currentDiameter.getD 0 : Nat)
    let press : Int := min (p.speciesValue (·.knifeBase) * 100 + p.speciesValue (·.knifeSlope) * d)
      (min (p.speciesValue (·.knifeMax)) p.knifeLimit * 100) / 100
    (p.monitor.takeover.inForce = true → p.knife.state = .yielded)
    ∧ (p.monitor.takeover.inForce = false →
      (p.hasActive = false → p.knife.state = .opened)
      ∧ (p.hasActive = true →
        (p.feed.state = .recover .back → p.knife.state = .relief)
        ∧ (p.feed.state = .recover .forward → p.knife.state = .boost)
        ∧ (p.feed.state = .idle → (p.saw.state = .advancing ∨ p.saw.state = .manual) → p.monitor.profile.works = true →
            p.knife.state = .clamped)
        ∧ (p.feed.state = .idle →
            (p.saw.state ≠ .advancing ∧ p.saw.state ≠ .manual) ∨ p.monitor.profile.works = false →
            p.knife.state = .opened)
        ∧ (p.feed.state ≠ .idle → (∀ ph, p.feed.state ≠ .recover ph) → p.knife.state = .clamped)))
    ∧ (p.knife.state = .opened ∨ p.knife.state = .yielded → p.knife.pressure = none)
    ∧ (∀ v, p.knife.override = some v → p.knife.state ≠ .opened → p.knife.state ≠ .yielded →
        p.knife.pressure = some (min v p.knifeLimit))
    ∧ (p.knife.override = none →
        (p.knife.state = .clamped → p.knife.pressure = some press)
        ∧ (p.knife.state = .relief → p.knife.pressure = some (press / 2))
        ∧ (p.knife.state = .boost →
            p.knife.pressure = some (min (press * (100 + p.setting 14)) (p.knifeLimit * 100) / 100)))
    ∧ (∀ x, p.knife.pressure = some x → x ≤ p.knifeLimit)

/-- TAKEOVER begins and ends a requested takeover; a BEGIN with one in force and an END with none change nothing. -/
def Obligations.TakeoverRequestBeginsAndEnds : Prop :=
  ∀ (s : State) (tag : Byte) (args : List Byte) (rest : List (List Byte)), Settled s.part →
    s.part.granted 0x07 tag args rest →
    (readU8 args 0 = 0 → s.part.monitor.takeover.inForce = false → ∃ q, Runs .takeover s q
      ∧ s.part.replies q (okAnswer 0x07 tag [1, 1, stickByte s.part.monitor.stick]) rest
      ∧ TakeoverBegun .requested s.part q ∧ q.saw.expectation = s.part.saw.expectation
      ∧ Follows { s.part with
          table := q.table, saw := q.saw
          monitor := { s.part.monitor with takeover := .requested }
          link := { s.part.link with requests := rest } } q)
    ∧ (readU8 args 0 = 0 → s.part.monitor.takeover.inForce = true →
        Runs .takeover s (s.part.withAnswer (okAnswer 0x07 tag
          [1, s.part.monitor.takeover.sourceCode, stickByte s.part.monitor.stick]) rest))
    ∧ (readU8 args 0 = 1 → s.part.monitor.takeover.inForce = false →
        Runs .takeover s (s.part.withAnswer (okAnswer 0x07 tag [0, 0xFF, stickByte s.part.monitor.stick]) rest))
    ∧ (readU8 args 0 = 1 → s.part.monitor.takeover.inForce = true → ∃ q, Runs .takeover s q
      ∧ s.part.replies q (okAnswer 0x07 tag [0, 0xFF, stickByte s.part.monitor.stick]) rest
      ∧ TakeoverEnded s.part q
      ∧ Follows { s.part with
          monitor := { s.part.monitor with takeover := .none }
          link := { s.part.link with requests := rest } } q)

/-- CUT_NOW: a feed in motion goes to SETTLE with a fresh timer, a settle goes on, and at rest the saw takes a DIRECT request at
once (with the end-of-stroke switch open, so that the stroke does not end in the same step). That no OVERSHOOT is raised there: log 35. -/
def Obligations.CutNowAsksForACutAtOnce : Prop :=
  ∀ (s : State) (tag : Byte) (args : List Byte) (rest : List (List Byte)), Settled s.part →
    s.part.granted 0x08 tag args rest →
    (s.part.feed.state.motion = true → ∃ q, Runs .cutNow s q ∧ s.part.replies q (okAnswer 0x08 tag []) rest
      ∧ q.feed.state = .settle ∧ q.feed.settle = some 0 ∧ q.feed.pendingDirect = true ∧ q.feed.stallOut = false
      ∧ q.feed.attempts = 0 ∧ q.feed.held = s.part.feed.held ∧ q.feed.corrections = s.part.feed.corrections
      ∧ q.link.conditions = s.part.link.conditions ∧ Follows (s.part.took rest) q)
    ∧ (s.part.feed.state = .settle → Runs .cutNow s ({ s.part with feed := { s.part.feed with
        pendingDirect := true, stallOut := false } }.withAnswer (okAnswer 0x08 tag []) rest))
    ∧ (s.part.feed.state = .idle ∨ s.part.feed.state = .grip ∨ s.part.feed.state = .stalled
          ∨ (s.part.feed.state = .cutWait ∧ ∃ k, s.part.feed.request = .waiting k) →
        s.part.pins.endOfStroke = false → ∃ q, Runs .cutNow s q ∧ s.part.replies q (okAnswer 0x08 tag []) rest
          ∧ q.feed.state = .cutWait ∧ q.feed.request = .taken .direct ∧ q.feed.pendingDirect = false
          ∧ q.feed.stallOut = false
          ∧ q.saw.state = .advancing ∧ q.saw.cutTimer = some 0 ∧ q.saw.returnTimer = none
          ∧ q.saw.cycle = some { owner := .part, kind := .direct, attempt := 1, cause := none, completionSeen := false
                                 commanded := false, fromFault := false }
          ∧ CutStarted .direct s.part q
          ∧ q.link.conditions = s.part.link.conditions ∧ HeadWork (s.part.took rest) q)

/-! ### Requests on records -/

/-- OPEN_STEM places a new OPEN record with the header of R5 and its inline entries in the lowest-numbered FREE slot, and answers
its stem ID; nothing else changes. -/
def Obligations.OpenStemCreatesARecord : Prop :=
  ∀ (s : State) (tag : Byte) (args : List Byte) (rest : List (List Byte)) (c : Fin 32) (i : Fin 8), Settled s.part →
    s.part.granted 0x10 tag args rest → c.val = readU8 args 0 → s.part.freeSlot = some i →
    s.part.recordAt i = none ∧ (∀ j : Fin 8, j < i → s.part.recordAt j ≠ none)
    ∧ Runs .openStem s ((s.part.setRecord i (some
        { state := .opened, species := c, reference := .none, felled := false, stump := none, revision := 0
          entries := (inlinePlans args (readU8 args 1)).mapIdx fun k plan =>
            { ident := k, state := .pending, plan, results := none }
          nextIdent := readU8 args 1, logCount := 0, produced := 0, excessCount := 0, excessLength := 0, topRemnant := none
          topSeen := false, held := none, dropCount := 0, takeoverSeen := false })).withAnswer
        (okAnswer 0x10 tag (u8 i.val ++ [s.part.table.slots[i].generation])) rest)

/-- ATTACH_STEM makes the record ACTIVE with reference NONE and a clear top seen flag; the length and diameter units start a new
ACTIVE period, the feed value is GRIP, and nothing is armed. -/
def Obligations.AttachStemStartsAnActivePeriod : Prop :=
  ∀ (s : State) (tag : Byte) (args : List Byte) (rest : List (List Byte)) (i : Fin 8) (r : Record), Settled s.part →
    s.part.granted 0x11 tag args rest → s.part.lookup (readStem args) = some i → s.part.recordAt i = some r →
    ∃ q, Runs .attachStem s q ∧ s.part.replies q (okAnswer 0x11 tag []) rest
      ∧ q.recordAt i = some { r with state := .active, reference := .none, topSeen := false, held := none }
      ∧ OtherSlotsKept s.part q i ∧ q.stemId i = s.part.stemId i ∧ q.activeSlot = some i
      ∧ q.table.bound = s.part.table.bound
      ∧ q.feed.value = .grip ∧ q.feed.held = none ∧ q.feed.corrections = 0 ∧ q.feed.seekSpent = false
      ∧ q.feed.stallOut = false
      ∧ q.feed.state = (if s.part.monitor.profile.works = false then .idle
          else if s.part.monitor.takeover.inForce then .manual else .grip)
      ∧ q.link.conditions = s.part.link.conditions
      ∧ Follows { s.part with
          table := q.table
          length := { s.part.length with
            logPos := none, history := none, carry := none, mirror := false, suspect := false, endPending := none
            slip := none, creep := none }
          diameter := { s.part.diameter with
            distance := some 0, gripWait := some 0, samples := [], mid := .reset, dropTimer := none, entry := none
            hold := false }
          monitor := { s.part.monitor with guidance := .reset }
          link := { s.part.link with requests := rest } } q

/-- FINISH_STEM: the record is FINISHED, its ARMED and PENDING entries SKIPPED; for an ACTIVE record the feed goes to IDLE and the
units end the ACTIVE period. -/
def Obligations.FinishStemEndsProcessing : Prop :=
  ∀ (s : State) (tag : Byte) (args : List Byte) (rest : List (List Byte)) (i : Fin 8) (r : Record), Settled s.part →
    s.part.granted 0x12 tag args rest → s.part.lookup (readStem args) = some i → s.part.recordAt i = some r →
    let done : Record := { r with state := .finished, entries := r.entries.map skipEntry, held := none }
    (r.state = .dropped →
      Runs .finishStem s ((s.part.setRecord i (some done)).withAnswer (okAnswer 0x12 tag []) rest))
    ∧ (r.state = .active → ∃ q, Runs .finishStem s q ∧ s.part.replies q (okAnswer 0x12 tag []) rest
      ∧ q.recordAt i = some done ∧ OtherSlotsKept s.part q i ∧ q.stemId i = s.part.stemId i
      ∧ q.table.bound = s.part.table.bound
      ∧ q.feed.value = .idle ∧ q.feed.state = .idle ∧ q.feed.held = none ∧ q.feed.corrections = 0
      ∧ q.feed.pendingDirect = false ∧ q.feed.request = .none ∧ q.feed.seekSpent = false ∧ q.feed.stallOut = false
      ∧ q.link.conditions = s.part.link.conditions
      ∧ Follows { s.part with
          table := q.table
          length := { s.part.length with
            logPos := none, history := none, mirror := false, suspect := false, slip := none, creep := none }
          diameter := { s.part.diameter with
            distance := none, gripWait := none, samples := [], mid := .reset, dropTimer := none, entry := none, hold := false }
          monitor := { s.part.monitor with guidance := .reset }
          link := { s.part.link with requests := rest } } q)

/-- RETIRE_STEM: the slot is FREE and its generation is one more, modulo 256; nothing else changes. No command but a retirement
changes a generation, save a reset, which gives the whole table its reset state. -/
def Obligations.RetireStemFreesTheSlot : Prop :=
  ∀ s : State,
    (∀ (tag : Byte) (args : List Byte) (rest : List (List Byte)) (i : Fin 8), Settled s.part →
      s.part.granted 0x13 tag args rest → s.part.lookup (readStem args) = some i →
      Runs .retireStem s ({ s.part with table := { s.part.table with
        slots := s.part.table.slots.set i.val { generation := s.part.table.slots[i].generation + 1, record := none } i.isLt }
        }.withAnswer (okAnswer 0x13 tag []) rest))
    ∧ ∀ (c : Instr) (q : Part), Runs c s q → q.table = .reset ∨ ∀ j : Fin 8,
        q.table.slots[j].generation = s.part.table.slots[j].generation
        ∨ (c = .retireStem ∧ s.part.recordAt j ≠ none ∧ q.recordAt j = none
          ∧ q.table.slots[j].generation = s.part.table.slots[j].generation + 1)

/-! ### Requests on cut lists -/

/-- APPEND_ENTRY: a PENDING PLAN entry joins the end and the revision is one more; where the arming conditions hold, the first
PENDING entry is ARMED and handed on. (By what the guidance knows an entry again: log 21; that it compares the position in whole
millimetres to announce one: log 9.) -/
def Obligations.AppendEntryJoinsTheEnd : Prop :=
  ∀ (s : State) (tag : Byte) (args : List Byte) (rest : List (List Byte)) (i : Fin 8) (r : Record), Settled s.part →
    s.part.granted 0x18 tag args rest → s.part.lookup (readStem args) = some i → s.part.recordAt i = some r →
    let new : Entry := { ident := r.nextIdent, state := .pending, plan := readPlanned args 4, results := none }
    let r' : Record :=
      { r with entries := r.entries ++ [new], nextIdent := r.nextIdent + 1, revision := r.revision + 1 }
    let results (st : EntryState) : List Byte :=
      word16 (r.revision + 1) ++ u8 (r.entries.length + 1 : Nat) ++ u8 r.entries.length ++ [st.code]
    (r.mayArm = false →
      Runs .appendEntry s ((s.part.setRecord i (some r')).withAnswer (okAnswer 0x18 tag (results .pending)) rest))
    ∧ (r.mayArm = true → ∃ q e es, Runs .appendEntry s q ∧ armFirst (r.entries ++ [new]) = some (e, es)
      ∧ s.part.replies q (okAnswer 0x18 tag (results
          (if armFirst r.entries = none then .armed else .pending))) rest
      ∧ HandedOn (some e) true ((s.part.setRecord i (some { r' with entries := es })).took rest) q
      ∧ RaisesOnly [.diamReject, .stall] s.part q)

/-- INSERT_ENTRY: a PLAN entry takes the index and the revision is one more. At the ARMED entry's index the new entry is ARMED
and handed on and the old one is PENDING; elsewhere it is PENDING, and an arming occasion follows. (That the answer reports
the state the entry ends with: log 29. The guidance knows an entry again by log 21 and announces it by the position in whole
millimetres, log 9.) -/
def Obligations.InsertEntryTakesTheIndex : Prop :=
  ∀ (s : State) (tag : Byte) (args : List Byte) (rest : List (List Byte)) (i : Fin 8) (r : Record), Settled s.part →
    s.part.granted 0x19 tag args rest → s.part.lookup (readStem args) = some i → s.part.recordAt i = some r →
    let index := readU8 args 4
    let new (st : EntryState) : Entry := { ident := r.nextIdent, state := st, plan := readPlanned args 5, results := none }
    let r' (es : List Entry) : Record := { r with entries := es, nextIdent := r.nextIdent + 1, revision := r.revision + 1 }
    let results (st : EntryState) : List Byte :=
      word16 (r.revision + 1) ++ u8 (r.entries.length + 1 : Nat) ++ u8 index ++ [st.code]
    (r.namesArmed index = false → r.mayArm = false →
      Runs .insertEntry s ((s.part.setRecord i (some (r' (r.entries.insertIdx index (new .pending))))).withAnswer
        (okAnswer 0x19 tag (results .pending)) rest))
    ∧ (r.namesArmed index = true → ∃ q, Runs .insertEntry s q
      ∧ s.part.replies q (okAnswer 0x19 tag (results .armed)) rest
      ∧ HandedOn (some (new .armed)) true
          ((s.part.setRecord i (some (r' ((r.entries.map disarmEntry).insertIdx index (new .armed))))).took rest) q
      ∧ RaisesOnly [.diamReject, .stall] s.part q)
    ∧ (r.namesArmed index = false → r.mayArm = true → ∃ q e es x, Runs .insertEntry s q
      ∧ armFirst (r.entries.insertIdx index (new .pending)) = some (e, es) ∧ es[index]? = some x
      ∧ s.part.replies q (okAnswer 0x19 tag (results x.state)) rest
      ∧ HandedOn (some e) true ((s.part.setRecord i (some (r' es))).took rest) q
      ∧ RaisesOnly [.diamReject, .stall] s.part q)

/-- CHANGE_ENTRY replaces the planned fields, with origin PLAN, and the revision is one more; index and state stay; a changed
ARMED entry is handed on. (The guidance knows an entry again by log 21 and announces it by the position in whole millimetres,
log 9.) -/
def Obligations.ChangeEntryReplacesPlannedFields : Prop :=
  ∀ (s : State) (tag : Byte) (args : List Byte) (rest : List (List Byte)) (i : Fin 8) (r : Record) (e : Entry),
    Settled s.part →
    s.part.granted 0x1A tag args rest → s.part.lookup (readStem args) = some i → s.part.recordAt i = some r →
    r.entries[readU8 args 4]? = some e →
    let e' : Entry := { e with plan := readPlanned args 5 }
    let r' : Record := { r with entries := r.entries.set (readU8 args 4) e', revision := r.revision + 1 }
    let results : List Byte :=
      word16 (r.revision + 1) ++ u8 r.entries.length ++ u8 (readU8 args 4) ++ [e.state.code]
    e'.plan.origin = .plan
    ∧ (e.state = .pending →
        Runs .changeEntry s ((s.part.setRecord i (some r')).withAnswer (okAnswer 0x1A tag results) rest))
    ∧ (e.state = .armed → ∃ q, Runs .changeEntry s q ∧ s.part.replies q (okAnswer 0x1A tag results) rest
        ∧ HandedOn (some e') true ((s.part.setRecord i (some r')).took rest) q
        ∧ RaisesOnly [.diamReject, .stall] s.part q)

/-- CANCEL_ENTRY removes the entry and the revision is one more. After the ARMED entry the first PENDING entry is ARMED, else a
filler is placed and ARMED with FILLER raised, else PLAN_EMPTY is raised; with the top seen nothing is armed. (The answer
beside a filler reports the list after it: log 29, not stated here. The guidance knows an entry again by log 21 and announces
it by the position in whole millimetres, log 9.) -/
def Obligations.CancelEntryRemovesTheEntry : Prop :=
  ∀ (s : State) (tag : Byte) (args : List Byte) (rest : List (List Byte)) (i : Fin 8) (r : Record) (e : Entry),
    Settled s.part →
    s.part.granted 0x1B tag args rest → s.part.lookup (readStem args) = some i → s.part.recordAt i = some r →
    r.entries[readU8 args 4]? = some e →
    let left := r.entries.eraseIdx (readU8 args 4)
    let r' (es : List Entry) : Record := { r with entries := es, revision := r.revision + 1 }
    let results : List Byte :=
      word16 (r.revision + 1) ++ u8 left.length ++ u8 (readU8 args 4) ++ [0xFF]
    (e.state = .pending →
      Runs .cancelEntry s ((s.part.setRecord i (some (r' left))).withAnswer (okAnswer 0x1B tag results) rest))
    ∧ (e.state = .armed → (r' left).mayArm = false → ∃ q, Runs .cancelEntry s q
        ∧ s.part.replies q (okAnswer 0x1B tag results) rest
        ∧ HandedOn none false ((s.part.setRecord i (some (r' left))).took rest) q
        ∧ RaisesOnly [.diamReject, .stall] s.part q)
    ∧ (∀ x es, e.state = .armed → (r' left).mayArm = true → armFirst left = some (x, es) → ∃ q, Runs .cancelEntry s q
        ∧ s.part.replies q (okAnswer 0x1B tag results) rest
        ∧ HandedOn (some x) true ((s.part.setRecord i (some (r' es))).took rest) q
        ∧ RaisesOnly [.diamReject, .stall] s.part q)
    ∧ (e.state = .armed → (r' left).mayArm = true → armFirst left = none → s.part.setting 6 = 1 → left.length < 12 →
        let filler : Entry :=
          { ident := r.nextIdent, state := .armed, results := none
            plan := { target := s.part.setting 7, minus := (s.part.setting 8).toNat, plus := (s.part.setting 8).toNat
                      minDia := none, assort := 255, origin := .filler } }
        ∃ q, Runs .cancelEntry s q ∧ q.raised .filler = true ∧ RaisesOnly [.filler, .diamReject, .stall] s.part q
          ∧ HandedOn (some filler) true ((s.part.setRecord i (some { r with
              entries := left ++ [filler], nextIdent := r.nextIdent + 1, revision := r.revision + 2 })).took rest) q)
    ∧ (e.state = .armed → (r' left).mayArm = true → armFirst left = none →
        s.part.setting 6 ≠ 1 ∨ 12 ≤ left.length → ∃ q, Runs .cancelEntry s q
          ∧ s.part.replies q (okAnswer 0x1B tag results) rest
          ∧ q.raised .planEmpty = true ∧ RaisesOnly [.planEmpty, .diamReject, .stall] s.part q
          ∧ HandedOn none false ((s.part.setRecord i (some (r' left))).took rest) q)

/-- The lateness test by feed state and by the log position in whole millimetres (log 9). -/
def Obligations.LatenessTestByFeedState : Prop :=
  ∀ (p : Part) (target : Int) (pos : Int), p.logMm = some pos →
    (p.feed.state = .approach ∨ p.feed.state = .settle ∨ (∃ h, p.feed.state = .correct h) ∨ p.feed.state = .cutWait →
      p.tooLate (some target) = true ∧ p.tooLate none = true)
    ∧ (p.feed.state = .feed →
        (p.tooLate (some target) = true ↔ target - p.speciesValue (·.approachDist) ≤ pos) ∧ p.tooLate none = false)
    ∧ (p.feed.state = .idle ∨ p.feed.state = .grip ∨ p.feed.state = .seek ∨ (∃ h, p.feed.state = .recover h)
        ∨ p.feed.state = .stalled ∨ p.feed.state = .manual →
      p.tooLate (some target) = false ∧ p.tooLate none = false)

/-! ### Species, settings, the stored copy, RESET -/

/-- WRITE_SPECIES makes the record valid with the values given, marking log and carry and discarding the slip window where a
correction in force changes (it opens again at once: log 37); CLEAR_SPECIES makes it invalid with the defaults. Other records,
the settings and the stored copy stay. -/
def Obligations.SpeciesRecordsAreWrittenAndCleared : Prop :=
  ∀ (s : State) (tag : Byte) (args : List Byte) (rest : List (List Byte)) (c : Fin 32), Settled s.part →
    c.val = readU8 args 0 →
    (s.part.granted 0x21 tag args rest → ∃ q, Runs .writeSpecies s q
      ∧ q.store = { s.part.store with working := { s.part.store.working with
          species := s.part.store.working.species.set c.val { readSpeciesImage args 1 with valid := true } c.isLt } }
      ∧ ValveOnly ({ s.part with
          store := q.store
          length := { s.part.length with history := q.length.history, carry := q.length.carry, slip := q.length.slip }
          knife := { s.part.knife with pressure := q.knife.pressure } }.withAnswer (okAnswer 0x21 tag (u8 c.val)) rest) q
      ∧ Rescaled s.part q
      ∧ (readSpeciesImage args 1 = { s.part.species c with valid := true } → q.length = s.part.length))
    ∧ (s.part.granted 0x22 tag args rest → Runs .clearSpecies s ({ s.part with store := { s.part.store with
        working := { s.part.store.working with
          species := s.part.store.working.species.set c.val (Species.builtIn false) c.isLt } } }.withAnswer
        (okAnswer 0x22 tag []) rest))

/-- CALIBRATE gives WHEEL_CORR the correction that makes the raw wheel length equal the true length, rounded to the nearest ppm
with halves away from zero, and moves DIAM_OFFSET by the step, held within 50 mm; a part not given stays. A correction in force that
changes marks log and carry and discards the slip window (it opens again at once: log 37). -/
def Obligations.CalibrateDerivesCorrections : Prop :=
  ∀ (s : State) (tag : Byte) (args : List Byte) (rest : List (List Byte)) (i : Fin 8) (r : Record) (e : Entry)
    (x : Results), Settled s.part →
    s.part.granted 0x23 tag args rest → s.part.lookup (readStem args) = some i → s.part.recordAt i = some r →
    r.entries[readU8 args 2]? = some e → e.results = some x →
    let old := s.part.species r.species
    ∃ q new, Runs .calibrate s q
      ∧ q.store = { s.part.store with working := { s.part.store.working with
          species := s.part.store.working.species.set r.species.val new r.species.isLt } }
      ∧ new = { old with wheelCorr := new.wheelCorr, diamOffset := new.diamOffset }
      ∧ (readOptI32 args 3 = none → new.wheelCorr = old.wheelCorr)
      ∧ (readOptU16 args 7 = none → new.diamOffset = old.diamOffset)
      ∧ (∀ l, readOptI32 args 3 = some l → ∃ w, x.rawWheel = some w ∧ 100 ≤ w
          ∧ (w ≤ l → 2 * new.wheelCorr * w ≤ 2 * ((l - w) * 1000000) + w
              ∧ 2 * ((l - w) * 1000000) + w < 2 * (new.wheelCorr + 1) * w)
          ∧ (l < w → 2 * -new.wheelCorr * w ≤ 2 * ((w - l) * 1000000) + w
              ∧ 2 * ((w - l) * 1000000) + w < 2 * (-new.wheelCorr + 1) * w))
      ∧ (∀ d : Nat, readOptU16 args 7 = some d → ∃ cut : Nat, x.cutDia = some cut
          ∧ new.diamOffset = max (-50) (min 50 (old.diamOffset + ((d : Int) - (cut + old.bark)))))
      ∧ Rescaled s.part q
      ∧ q = ({ s.part with
          store := q.store
          length := { s.part.length with history := q.length.history, carry := q.length.carry, slip := q.length.slip }
          }.withAnswer (okAnswer 0x23 tag (i32 old.wheelCorr ++ i32 new.wheelCorr ++ u8 old.diamOffset ++ u8 new.diamOffset))
            rest)

/-- WRITE_SETTING: the setting takes the value and no other setting, species record or stored value changes. A write of the value
held changes nothing. A plain setting touches the log's marks, the slip window, the drop timer and the knife pressure at most;
LINE_ENABLE, LINE_LOW and LINE_HIGH restart their line's supervision and touch the drop timer beside it; SNOOP_ENABLE changes a
takeover's source and the stick image; a lowered TAKEOVER_RELEASE, CUT_TIME_LIMIT, RETURN_TIME_LIMIT or VALVE_REFRESH acts at
once on a timer that has run it, with all that the timer's expiry does, and touches nothing else otherwise. (The last: the
model's choice, log 20. That a discarded slip window opens again at once: log 37.) -/
def Obligations.WriteSettingTakesTheValue : Prop :=
  ∀ (s : State) (tag : Byte) (args : List Byte) (rest : List (List Byte)) (n : Fin 40), Settled s.part →
    s.part.granted 0x29 tag args rest → n.val = readU8 args 0 →
    let v := readI16 args 1
    let ok := okAnswer 0x29 tag (u8 n.val ++ u16 v)
    ∃ q, Runs .writeSetting s q ∧ s.part.replies q ok rest
      ∧ q.store = { s.part.store with working := { s.part.store.working with
          settings := s.part.store.working.settings.set n.val v n.isLt } }
      ∧ (v = s.part.setting n → n ≠ 35 → q = s.part.withAnswer ok rest)
      ∧ (n ∉ ([15, 16, 18, 19, 20, 21, 22, 23, 24, 25, 26, 35, 38, 39] : List (Fin 40)) →
          ValveOnly ({ s.part with
            store := q.store
            length := { s.part.length with history := q.length.history, carry := q.length.carry, slip := q.length.slip }
            diameter := { s.part.diameter with dropTimer := q.diameter.dropTimer }
            knife := { s.part.knife with pressure := q.knife.pressure } }.withAnswer ok rest) q ∧ Rescaled s.part q)
      ∧ (n ∈ ([18, 19, 20, 21, 22, 23, 24, 25, 26] : List (Fin 40)) →
          ValveOnly ({ s.part with
            store := q.store
            diameter := { s.part.diameter with lines := q.diameter.lines, dropTimer := q.diameter.dropTimer }
            }.withAnswer ok rest) q)
      ∧ (n = 35 → ValveOnly ({ s.part with store := q.store }.withAnswer ok rest) q)
      ∧ (n = 38 → ValveOnly ({ s.part with
            store := q.store
            monitor := { s.part.monitor with takeover := q.monitor.takeover, stick := q.monitor.stick } }.withAnswer ok rest) q)
      ∧ (n = 39 → v = s.part.setting n ∨ ran s.part.monitor.takeover.timer v = false →
          ValveOnly ({ s.part with store := q.store }.withAnswer ok rest) q)
      ∧ (n = 15 → v = s.part.setting n ∨ ran s.part.saw.cutTimer v = false ∨ s.part.saw.state ≠ .advancing →
          ValveOnly ({ s.part with store := q.store }.withAnswer ok rest) q)
      ∧ (n = 16 → v = s.part.setting n ∨ ran s.part.saw.returnTimer v = false ∨ s.part.saw.state ≠ .returning →
          ValveOnly ({ s.part with store := q.store }.withAnswer ok rest) q)
      ∧ (∀ l : Line, n.val = 18 + (lineIdx l).val → v ≠ s.part.setting n →
          (v = 0 → (q.line l).state = .disabled ∧ (q.line l).run = none)
          ∧ (v = 1 → (q.line l).state = .qualifying ∧ (q.line l).run = some 0)
          ∧ ∀ l', l' ≠ l → q.line l' = s.part.line l')
      ∧ (∀ l : Line, n.val = 21 + (lineIdx l).val ∨ n.val = 24 + (lineIdx l).val → v ≠ s.part.setting n →
          ((s.part.line l).state = .disabled → q.line l = s.part.line l)
          ∧ ((s.part.line l).state ≠ .disabled → (q.line l).run = some 0)
          ∧ ((∀ k, (s.part.line l).state ≠ .fault k) → (q.line l).state = (s.part.line l).state)
          ∧ ∀ l', l' ≠ l → q.line l' = s.part.line l')
      ∧ (n = 38 → v ≠ s.part.setting n → q.feed = s.part.feed ∧ q.saw = s.part.saw
          ∧ (v = 0 → q.monitor.stick = none ∧ q.monitor.takeover = (match s.part.monitor.takeover with
              | .snooped _ => .requested
              | t => t))
          ∧ (v = 1 → q.monitor.stick = s.part.monitor.stick ∧ q.monitor.takeover = (match s.part.monitor.takeover with
              | .requested => .snooped 0
              | t => t)))
      ∧ (∀ t : Nat, n = 39 → v ≠ s.part.setting n → s.part.monitor.takeover = .snooped t → v ≤ t →
          TakeoverEnded s.part q ∧ Follows { s.part with
            store := q.store
            monitor := { s.part.monitor with takeover := .none }
            link := { s.part.link with requests := rest } } q)
      ∧ (∀ t : Nat, n = 35 → s.part.sendsValve = true → s.part.link.refresh = some t → v ≤ t →
          q.link.valve = some { id := s.part.valveId, data := valveData q.link.image } ∧ q.link.refresh = some 0)
      ∧ (∀ t : Nat, n = 16 → v ≠ s.part.setting n → s.part.saw.state = .returning → s.part.saw.returnTimer = some t →
          v ≤ t → q.saw = { s.part.saw with state := .jammed, returnTimer := none } ∧ q.raised .sawJam = true
            ∧ RaisesOnly [.sawJam, .stall] s.part q
            ∧ (s.part.feed.cutTaken = true → q.feed.state = q.decision ∧ q.feed.request = .none)
            ∧ (s.part.feed.cutTaken = false → q.feed = s.part.feed)
            ∧ Follows { s.part with
                store := q.store, saw := q.saw
                link := { s.part.link with requests := rest } } q)
      ∧ (∀ t : Nat, n = 15 → v ≠ s.part.setting n → s.part.saw.state = .advancing → s.part.saw.cutTimer = some t →
          v ≤ t → s.part.pins.homeClosed = false → ∀ c, s.part.saw.cycle = some c →
            CutAborted s.part q
              ∧ q.saw = { s.part.saw with
                  state := .returning, cutTimer := none, returnTimer := some 0
                  cycle := some { c with cause := some (if c.attempt = 2 then .secondTimeout else .firstTimeout) } }
              ∧ (c.attempt = 2 → q.raised .sawTimeout = true)
              ∧ RaisesOnly (if c.attempt = 2 then [.sawTimeout, .stall, .diamReject] else [.stall, .diamReject]) s.part q
              ∧ HeadWork { s.part with
                  store := q.store
                  link := { s.part.link with requests := rest } } q)

/-- STORE sets the store in flight and answers at once; STORE_COMPLETION ends it: OK leaves the stored copy sound and equal to the
working copy, FAILED leaves it unsound and raises STORE_FAULT; STORE_DONE is sent; with no store in flight it changes nothing. (The last:
log 17.) -/
def Obligations.StoreIsTakenAndCompletes : Prop :=
  ∀ s : State, Settled s.part →
    (∀ tag args rest, s.part.granted 0x2A tag args rest → Runs .store s
      ({ s.part with store := { s.part.store with inFlight := some 0 } }.withAnswer (okAnswer 0x2A tag []) rest))
    ∧ (s.part.powered = true → s.part.store.inFlight ≠ none →
        Runs (.storeCompletion true) s { s.part with
          draws := s.part.draws + 1
          store := { s.part.store with stored := s.part.store.working, sound := true, inFlight := none }
          link := { s.part.link with sendList :=
            if s.part.link.busOff then [] else (s.part.link.sendList ++ [SendItem.notice (.storeDone true)]).take 16 } }
        ∧ Runs (.storeCompletion false) s { s.part with
          draws := s.part.draws + 1
          store := { s.part.store with sound := false, inFlight := none }
          link := { s.part.link with
            conditions := s.part.link.conditions ||| Condition.storeFault.word
            sendList := s.part.announced .storeFault (s.part.link.sendList ++ [.notice (.storeDone false)]) } })
    ∧ (s.part.store.inFlight = none → ∀ held, Runs (.storeCompletion held) s s.part)

/-- RESET: its answer joins the send list and the reset takes effect when that answer has been sent; during bus-off it takes
effect at once. -/
def Obligations.ResetTakesEffectAfterItsAnswer : Prop :=
  ∀ (s : State) (tag : Byte) (args : List Byte) (rest : List (List Byte)) (k : ResetKind), Settled s.part →
    (s.part.granted 0x30 tag args rest → k = (if readU8 args 0 = 0 then .normal else .factory) →
      (s.part.link.busOff = false → Runs .reset s
        ({ s.part with boot := { s.part.boot with resetPending := some k } }.withAnswer
          (okAnswer 0x30 tag [byteAt args 0]) rest))
      ∧ (s.part.link.busOff = true → ∃ q, Runs .reset s q ∧ ResetTaken k s.part q))
    ∧ (∀ a l, s.part.powered = true → s.part.boot.resetPending = some k → s.part.link.valve = none →
        s.part.link.sendList = .answer a :: l →
        (a.code = 0x30 → a.answer = .ok → ∃ q, Runs .frameTransmitted s q ∧ ResetTaken k s.part q
          ∧ q.link.lastSent = some ((SendItem.answer a).frame s.part.link.node))
        ∧ (a.code ≠ 0x30 → Runs .frameTransmitted s { s.part with link := { s.part.link with
            sendList := l, errors := s.part.link.errors - 1
            lastSent := some ((SendItem.answer a).frame s.part.link.node) } }))

/-! ### The link -/

/-- FRAME_TRANSMITTED: of the waiting valve command frame and the head of the send list the lower identifier goes; it leaves, the
error count falls by one, not below 0, and nothing else changes. With equal identifiers one of the two goes. (Which one: a
free value, log 14. With nothing waiting nothing changes: log 17.) -/
def Obligations.FrameTransmittedSendsTheLowerIdentifier : Prop :=
  ∀ s : State, Settled s.part → s.part.powered = true → s.part.boot.resetPending = none →
    let sentValve (v : OutFrame) : Part := { s.part with link := { s.part.link with
      valve := none, errors := s.part.link.errors - 1, lastSent := some v } }
    let sentItem (i : SendItem) (l : List SendItem) : Part := { s.part with link := { s.part.link with
      sendList := l, errors := s.part.link.errors - 1, lastSent := some (i.frame s.part.link.node) } }
    (s.part.link.valve = none → s.part.link.sendList = [] → Runs .frameTransmitted s s.part)
    ∧ (∀ v, s.part.link.valve = some v → s.part.link.sendList = [] → Runs .frameTransmitted s (sentValve v))
    ∧ (∀ i l, s.part.link.valve = none → s.part.link.sendList = i :: l → Runs .frameTransmitted s (sentItem i l))
    ∧ (∀ v i l, s.part.link.valve = some v → s.part.link.sendList = i :: l →
        (v.id < (i.frame s.part.link.node).id → Runs .frameTransmitted s (sentValve v))
        ∧ ((i.frame s.part.link.node).id < v.id → Runs .frameTransmitted s (sentItem i l))
        ∧ (v.id = (i.frame s.part.link.node).id →
            Runs .frameTransmitted s { sentValve v with draws := s.part.draws + 1 }
              ∨ Runs .frameTransmitted s { sentItem i l with draws := s.part.draws + 1 }))

/-- TRANSMIT_ERROR adds 8 to the error count; above 255 the link enters bus-off: send list, waiting frame and refresh timer go,
and the feed value becomes GRIP. A RESET whose answer that entry discards takes effect at the entry. During bus-off the part sends
no frame. (The last: log 17.) -/
def Obligations.TransmitErrorLeadsToBusOff : Prop :=
  ∀ s : State, Settled s.part → s.part.powered = true →
    (s.part.link.busOff = true → Runs .transmitError s s.part)
    ∧ (s.part.link.busOff = false → s.part.link.errors + 8 ≤ 255 →
        Runs .transmitError s { s.part with link := { s.part.link with errors := s.part.link.errors + 8 } })
    ∧ (s.part.link.busOff = false → 255 < s.part.link.errors + 8 → s.part.boot.resetPending = none →
        ∃ q, Runs .transmitError s q ∧ q.link.busOff = true ∧ q.link.errors = s.part.link.errors + 8
          ∧ q.link.sendList = [] ∧ q.link.valve = none ∧ q.link.refresh = none
          ∧ q.feed.value = .grip ∧ q.feed.pendingDirect = false ∧ (∀ k, q.feed.request ≠ .waiting k)
          ∧ (s.part.feed.cutTaken = true → q.feed.state = .cutWait ∧ q.feed.request = s.part.feed.request)
          ∧ (s.part.feed.cutTaken = false → q.feed.state = q.decision)
          ∧ q.link.conditions = s.part.link.conditions
          ∧ Follows { s.part with link := { s.part.link with busOff := true, errors := s.part.link.errors + 8 } } q)
    ∧ (∀ k, s.part.link.busOff = false → 255 < s.part.link.errors + 8 → s.part.boot.resetPending = some k →
        ∃ q, Runs .transmitError s q ∧ ResetTaken k s.part q)

/-- BUS_OFF_RECOVERY: the link sends and receives again with the error count 0, and in PROCESS and FELL_PROCESS the image is built
into a frame at once; outside bus-off it changes nothing. (The
last: log 17.) -/
def Obligations.BusOffRecoverySendsTheImage : Prop :=
  ∀ s : State, Settled s.part → s.part.powered = true →
    (s.part.link.busOff = false → Runs .busOffRecovery s s.part)
    ∧ (s.part.link.busOff = true → Runs .busOffRecovery s { s.part with link := { s.part.link with
        busOff := false, errors := 0
        valve := if s.part.monitor.profile.works
          then some { id := s.part.valveId, data := valveData s.part.link.image } else s.part.link.valve
        refresh := if s.part.monitor.profile.works then some 0 else none } })

/-- VALVE_REFRESH_EXPIRY builds a frame from the image as it stands and the timer starts again. And whatever the command: where it
changes the image while frames are sent, or frames begin to be sent, one frame of the image as it then stands waits and the timer
starts; where none are sent the timer does not run. (That the expiry changes nothing without a running timer: log 17.) -/
def Obligations.ValveFramesOnRefreshAndOnChange : Prop :=
  ∀ s : State, Settled s.part → s.part.powered = true →
    (s.part.sendsValve = true → s.part.link.refresh ≠ none → Runs .valveRefreshExpiry s { s.part with
      link := { s.part.link with
        valve := some { id := s.part.valveId, data := valveData s.part.link.image }, refresh := some 0 } })
    ∧ (s.part.sendsValve = false ∨ s.part.link.refresh = none → Runs .valveRefreshExpiry s s.part)
    ∧ ∀ (c : Instr) (q : Part), c ≠ .lossOfPower → Runs c s q →
      (q.sendsValve = true → q.link.image ≠ s.part.link.image ∨ s.part.sendsValve = false →
        q.link.valve = some { id := q.valveId, data := valveData q.link.image } ∧ q.link.refresh = some 0)
      ∧ (q.sendsValve = false → q.link.refresh = none)

/-- STICK_FRAME: the image is replaced and saw advance opens the expectation; an active frame begins a snooped takeover or
restarts its timer; a frame that is not decoded changes nothing. -/
def Obligations.StickFrameIsDecoded : Prop :=
  ∀ (f : BusFrame) (s : State), Settled s.part → s.part.powered = true →
    let x := readStick (byteAt f.data 0)
    let heard : Prop := s.part.setting 38 = 1 ∧ f.id = s.part.stickId ∧ f.remote = false ∧ s.part.link.busOff = false
      ∧ f.data ≠ []
    let expectation : Option Nat := if x.sawAdvance then some 0 else s.part.saw.expectation
    (x.sawAdvance = (byteAt f.data 0).getLsbD 3
      ∧ (x.active = true ↔ (byteAt f.data 0) &&& 0x0F ≠ 0))
    ∧ (¬heard → Runs (.stickFrame f) s s.part)
    ∧ (heard → x.active = false →
        Runs (.stickFrame f) s { s.part with monitor := { s.part.monitor with stick := some x } })
    ∧ (heard → x.active = true → s.part.monitor.takeover = .none → ∃ q, Runs (.stickFrame f) s q
        ∧ TakeoverBegun (.snooped 0) s.part q ∧ q.monitor.stick = some x ∧ q.saw.expectation = expectation
        ∧ Follows { s.part with
            table := q.table, saw := q.saw
            monitor := { s.part.monitor with takeover := .snooped 0, stick := some x } } q)
    ∧ (∀ t, heard → x.active = true → s.part.monitor.takeover = .snooped t → Runs (.stickFrame f) s { s.part with
        monitor := { s.part.monitor with stick := some x, takeover := .snooped 0 }
        saw := { s.part.saw with expectation := expectation } })
    ∧ (heard → x.active = true → s.part.monitor.takeover = .requested → Runs (.stickFrame f) s { s.part with
        monitor := { s.part.monitor with stick := some x }
        saw := { s.part.saw with expectation := expectation } })

/-- TAKEOVER_RELEASE_EXPIRY ends a snooped takeover; ADVANCE_EXPECTATION_EXPIRY closes the expectation. (Without
a snooped takeover, or an open expectation, the expiry changes nothing: log 17.) -/
def Obligations.TakeoverAndExpectationRunOut : Prop :=
  ∀ s : State, Settled s.part → s.part.powered = true →
    (∀ t, s.part.monitor.takeover = .snooped t → ∃ q, Runs .takeoverReleaseExpiry s q ∧ TakeoverEnded s.part q ∧ q.link.sendList = s.part.link.sendList
      ∧ Follows { s.part with monitor := { s.part.monitor with takeover := .none } } q)
    ∧ ((∀ t, s.part.monitor.takeover ≠ .snooped t) → Runs .takeoverReleaseExpiry s s.part)
    ∧ Runs .advanceExpectationExpiry s { s.part with saw := { s.part.saw with expectation := none } }

/-! ### Encoders, switches, lines -/

/-- WHEEL_COUNT and ROLLER_COUNT: the remainder and the corrected increment, signed, move the accumulator by whole µm, truncated
toward zero, and leave the remainder; no fraction is lost. The change `d` in whole µm moves the slip window's sum and, where the
encoder is the selected source, all that follows the stem's travel: head travel counter, log position and carry, sampling
distance, mid-diameter and creep watch, end sensor, feed and guidance. A wheel count moves the raw wheel travel, a roller count
the seating distance. (The signed remainder: log 13; whole millimetres at the feed and the guidance: log 9; the order within a count: log 11, and
free where a failing sample meets SETTLE: log 31; a half target kept after the entry is ARMED no more: log 32.) That a feed in a
motion state or SETTLE works is EveryStepKeepsMotionGuarded's: without it a count could place three notices. -/
def Obligations.CountsMoveTheSums : Prop :=
  ∀ (forward : Bool) (s : State), Settled s.part → MotionGuarded s.part → s.part.powered = true →
    let sign : Int := if forward then 1 else -1
    (∃ q, Runs (.wheelCount forward) s q ∧ CountWork s.part q ∧ q.saw = s.part.saw
      ∧ (let travel := s.part.length.wheel.rem + sign * (s.part.wheelPitch * (1000000 + s.part.wheelCorr));
        q.length.wheel = { acc := s.part.length.wheel.acc + travel.tdiv 1000000, rem := travel.tmod 1000000 }
          ∧ q.length.wheel.acc * 1000000 + q.length.wheel.rem = s.part.length.wheel.acc * 1000000 + travel
          ∧ q.length.wheel.rem.natAbs < 1000000)
      ∧ q.length.roller = s.part.length.roller ∧ q.length.contact = s.part.length.contact
      ∧ RaisesOnly [.slip, .wheelSuspect, .creep, .stall, .noEnd, .diamReject, .filler, .planEmpty] s.part q
      ∧ (let d := q.length.wheel.acc - s.part.length.wheel.acc;
        SlipCompared d s.part q
          ∧ (s.part.source = .roller → NotTravelled s.part q ∧ RawMoved (movedTo (sign * s.part.wheelPitch)) s.part q)
          ∧ (s.part.source = .wheel → Travelled d s.part q
              ∧ (s.part.qualifies d = false → RawMoved (movedTo (sign * s.part.wheelPitch)) s.part q))))
    ∧ (∃ q, Runs (.rollerCount forward) s q ∧ CountWork s.part q ∧ q.saw = s.part.saw
      ∧ (let travel := s.part.length.roller.rem + sign * (s.part.rollerPitch * (1000000 + s.part.rollerCorr));
        q.length.roller = { acc := s.part.length.roller.acc + travel.tdiv 1000000, rem := travel.tmod 1000000 }
          ∧ q.length.roller.acc * 1000000 + q.length.roller.rem = s.part.length.roller.acc * 1000000 + travel
          ∧ q.length.roller.rem.natAbs < 1000000)
      ∧ q.length.wheel = s.part.length.wheel
      ∧ RaisesOnly [.creep, .stall, .noEnd, .diamReject, .filler, .planEmpty] s.part q
      ∧ (s.part.length.contact = .lifted → q.length.contact = .lifted)
      ∧ (s.part.length.contact = .seated → q.length.contact = .seated)
      ∧ (let d := q.length.roller.acc - s.part.length.roller.acc;
        SlipSummed d s.part q
          ∧ (∀ x, s.part.length.contact = .seating x →
              q.length.contact = if 50000 ≤ x + d.natAbs then .seated else .seating (x + d.natAbs))
          ∧ (s.part.source = .wheel → NotTravelled s.part q ∧ RawMoved id s.part q)
          ∧ (s.part.source = .roller → Travelled d s.part q ∧ (s.part.qualifies d = false → RawMoved id s.part q))))

/-- The end sensor's qualified covered-to-clear change: in reverse it references the stem (R74), forward it reports the top with
its remnant, and the record finishes at once or waits for a cut (R75, R19). (WHEEL_COUNT and ROLLER_COUNT run this test on the
travel of the selected source: `EndSensed` in CountsMoveTheSums.) -/
def Obligations.EndSensorReferencesAndReportsTheTop : Prop :=
  ∀ (p : Part) (noted : Int) (i : Fin 8) (r : Record),
    p.length.endPending = some noted → p.length.endCovered = true → p.activeSlot = some i → p.recordAt i = some r →
    (p.length.head ≤ noted - 5000 → p.length.mirror = false → r.reference = .none →
        (p.monitor.profile ≠ .fellProcess ∨ r.felled = true) → p.boundTo i = false → ∃ r',
        (endQualify p).recordAt i = some r' ∧ r'.reference = .endSensed ∧ r'.totals = r.totals
          ∧ (endQualify p).length.endCovered = false ∧ (endQualify p).length.endPending = none
          ∧ (endQualify p).length.mirror = true
          ∧ (endQualify p).length.logPos = some (-(p.endOffset * 1000))
          ∧ (endQualify p).length.history = some { mark := p.source.mark, slip := false, creep := false
                                                   raw := -(p.endOffset * 1000) }
          ∧ OtherSlotsKept p (endQualify p) i)
    ∧ (∀ pos, noted + 5000 ≤ p.length.head → r.reference ≠ .none → p.logMm = some pos → r.topSeen = false →
        (p.boundTo i = true ∨ (∃ e, r.armed = some e ∧ e.plan.target - e.plan.minus ≤ pos + p.endOffset) →
          (endQualify p).recordAt i = some { r with topSeen := true, held := some (pos + p.endOffset) }
            ∧ (endQualify p).feed = p.feed ∧ OtherSlotsKept p (endQualify p) i)
        ∧ (p.boundTo i = false → (∀ e, r.armed = some e → pos + p.endOffset < e.plan.target - e.plan.minus) →
          (endQualify p).recordAt i = some { r with
              state := .finished, entries := r.entries.map skipEntry, held := none, topSeen := true
              topRemnant := some (pos + p.endOffset) }
            ∧ (endQualify p).feed.value = .idle ∧ (endQualify p).feed.state = .idle
            ∧ (endQualify p).link.sendList = p.link.sendList ++
                [SendItem.notice (.stemState (p.stemId i) .finished .top r.dropCount (some (pos + p.endOffset)))]
            ∧ OtherSlotsKept p (endQualify p) i))
    ∧ (noted - 5000 < p.length.head → p.length.head < noted + 5000 → endQualify p = p)

/-- WHEEL_CONTACT_SWITCH, END_SENSOR_CHANGE and ARM_LINE_READING: the level at the pin, the contact state, the pending end-sensor
change, the line's run and latest kind; a level that does not change does nothing. A contact that changes the selected source marks
log and carry MIXED. (That an unchanged level does nothing: log 17.) -/
def Obligations.SensorLevelsAreTaken : Prop :=
  ∀ s : State, Settled s.part → s.part.powered = true →
    (∀ closed : Bool, s.part.pins.wheelClosed = closed → Runs (.wheelContactSwitch closed) s s.part)
    ∧ (∀ closed : Bool, s.part.pins.wheelClosed = !closed → ∃ q, Runs (.wheelContactSwitch closed) s q
        ∧ q.length.contact = (if closed then .seating 0 else .lifted)
        ∧ q.feed = s.part.feed ∧ q.link.conditions = s.part.link.conditions ∧ Rescaled s.part q
        ∧ Follows { s.part with
            pins := { s.part.pins with wheelClosed := closed }
            length := { s.part.length with
              contact := q.length.contact, history := q.length.history, carry := q.length.carry } } q)
    ∧ (∀ covered : Bool, s.part.pins.endCovered = covered → Runs (.endSensorChange covered) s s.part)
    ∧ (∀ covered : Bool, s.part.pins.endCovered = !covered → Runs (.endSensorChange covered) s { s.part with
        pins := { s.part.pins with endCovered := covered }
        length := { s.part.length with
          endPending := if covered = s.part.length.endCovered then none else some s.part.length.head } })
    ∧ (∀ (l : Line) (x : BitVec 12), ∃ q, Runs (.armLineReading l x) s q
        ∧ q.pins = { s.part.pins with readings := s.part.pins.readings.set (lineIdx l).val x (lineIdx l).isLt }
        ∧ ((s.part.line l).state = .disabled → q.line l = s.part.line l)
        ∧ ((s.part.line l).state ≠ .disabled →
            (q.line l).run = (if (s.part.outOfWindow l).isSome = (q.outOfWindow l).isSome then (s.part.line l).run else some 0)
            ∧ (q.line l).state = (match (s.part.line l).state, q.outOfWindow l with
                | .fault _, some k => .fault k
                | st, _ => st))
        ∧ (∀ l', l' ≠ l → q.line l' = s.part.line l')
        ∧ q.feed = s.part.feed ∧ q.link.conditions = s.part.link.conditions
        ∧ Follows { s.part with
            pins := q.pins
            diameter := { s.part.diameter with lines := q.diameter.lines } } q)

/-- LINE_OUT_OF_WINDOW_EXPIRY takes a QUALIFYING or OK line whose reading is out of window to FAULT with the reading's kind and
raises LINE_FAULT; LINE_IN_WINDOW_EXPIRY takes a QUALIFYING or FAULT line whose reading is in window to OK, and the part enters
READY once every enabled line is OK; in other states they change nothing. (The last: log 17. That a line in
FAULT may become OK before READY too: log 38.) -/
def Obligations.LineExpiriesChangeTheLine : Prop :=
  ∀ (s : State) (l : Line), Settled s.part → s.part.powered = true →
    (∀ k, ((s.part.line l).state = .qualifying ∨ (s.part.line l).state = .ok) → s.part.outOfWindow l = some k →
      ∃ q, Runs (.lineOutOfWindowExpiry l) s q ∧ (q.line l).state = .fault k ∧ q.raised .lineFault = true
        ∧ RaisesOnly [.lineFault] s.part q ∧ (∀ l', l' ≠ l → q.line l' = s.part.line l')
        ∧ q.feed = s.part.feed ∧ q.boot = s.part.boot
        ∧ Follows { s.part with diameter := { s.part.diameter with lines := q.diameter.lines } } q)
    ∧ ((s.part.line l).state = .disabled ∨ (∃ k, (s.part.line l).state = .fault k) ∨ s.part.outOfWindow l = none →
      Runs (.lineOutOfWindowExpiry l) s s.part)
    ∧ ((s.part.line l).state = .qualifying ∨ (∃ k, (s.part.line l).state = .fault k) → s.part.outOfWindow l = none →
      ∃ q, Runs (.lineInWindowExpiry l) s q ∧ (q.line l).state = .ok
        ∧ (∀ l', l' ≠ l → q.line l' = s.part.line l')
        ∧ q.feed = s.part.feed ∧ q.link.conditions = s.part.link.conditions
        ∧ (s.part.boot.ready = false → (∀ l', l' ≠ l → s.part.lineEnabled l' = true → (s.part.line l').state = .ok) →
            q.boot.ready = true ∧ q.boot.elapsed = none)
        ∧ (s.part.boot.ready = true ∨ (∃ l', l' ≠ l ∧ s.part.lineEnabled l' = true ∧ (s.part.line l').state ≠ .ok) →
            q.boot = s.part.boot)
        ∧ Follows { s.part with diameter := { s.part.diameter with lines := q.diameter.lines } } q)
    ∧ ((s.part.line l).state = .disabled ∨ (s.part.line l).state = .ok ∨ s.part.outOfWindow l ≠ none →
      Runs (.lineInWindowExpiry l) s s.part)

/-- A sample combines the usable lines as R83 gives and is corrected, freed of bark and truncated as R84 gives; the list keeps
four and the current diameter is their truncated mean (R85). -/
def Obligations.SamplesCombineUsableLines : Prop :=
  ∀ (p : Part) (sp : Species), p.inUse = some sp →
    let ka := p.estimate .ka
    let kb := p.estimate .kb
    let rl := p.estimate .rl
    (∀ l, p.usable l = true ↔ p.lineEnabled l = true ∧ (p.line l).state = .ok ∧ p.lineLow l ≤ p.reading l
        ∧ p.reading l ≤ p.lineHigh l)
    ∧ (∀ l, p.estimate l = p.lineOffset l * 1000 + p.lineGain l * p.reading l)
    ∧ (p.usable .ka = false → p.usable .kb = false → p.usable .rl = false → takeSample p = p)
    ∧ (∀ over4 : Int,
        (p.usable .ka = true ∧ p.usable .kb = true ∧ p.usable .rl = true ∧ over4 = (ka + kb) + 2 * rl)
        ∨ (p.usable .ka = true ∧ p.usable .kb = false ∧ p.usable .rl = true ∧ over4 = 2 * ka + 2 * rl)
        ∨ (p.usable .ka = false ∧ p.usable .kb = true ∧ p.usable .rl = true ∧ over4 = 2 * kb + 2 * rl)
        ∨ (p.usable .ka = false ∧ p.usable .kb = false ∧ p.usable .rl = true ∧ over4 = 4 * rl)
        ∨ (p.usable .ka = true ∧ p.usable .kb = true ∧ p.usable .rl = false ∧ over4 = 2 * (ka + kb))
        ∨ (p.usable .ka = true ∧ p.usable .kb = false ∧ p.usable .rl = false ∧ over4 = 4 * ka)
        ∨ (p.usable .ka = false ∧ p.usable .kb = true ∧ p.usable .rl = false ∧ over4 = 4 * kb) →
        ∃ n : Nat, takeSample p = { p with diameter := { p.diameter with samples :=
            if p.diameter.samples.length < 4 then p.diameter.samples ++ [n] else p.diameter.samples.tail ++ [n] } }
          ∧ (over4 * (1000000 + sp.diamGain) + (sp.diamOffset - sp.bark) * 4000000000 < 0 → n = 0)
          ∧ (0 ≤ over4 * (1000000 + sp.diamGain) + (sp.diamOffset - sp.bark) * 4000000000 →
              (n : Int) * 4000000000 ≤ over4 * (1000000 + sp.diamGain) + (sp.diamOffset - sp.bark) * 4000000000
              ∧ over4 * (1000000 + sp.diamGain) + (sp.diamOffset - sp.bark) * 4000000000 < (n + 1) * 4000000000))
    ∧ (p.diameter.samples = [] → p.currentDiameter = none)
    ∧ (p.diameter.samples ≠ [] →
        p.currentDiameter = some (p.diameter.samples.sum / p.diameter.samples.length))

/-- GRIP_SAMPLE_EXPIRY: 200 ms after ATTACH_STEM a sample is taken where the record is still ACTIVE and none has been; the wait
ends. A sample that fails the minimum in FEED or APPROACH brings a hold into force, with DIAM_REJECT, and the feed decides afresh;
in any other state the feed stays. Without a wait it changes nothing (log 17). (That the sampling distance runs on: log 34.) -/
def Obligations.GripSampleIsTakenOnce : Prop :=
  ∀ s : State, Settled s.part → s.part.powered = true →
    (s.part.diameter.gripWait = none → Runs .gripSampleExpiry s s.part)
    ∧ (s.part.diameter.gripWait ≠ none → ∃ q, Runs .gripSampleExpiry s q ∧ q.diameter.gripWait = none
        ∧ (s.part.hasActive = true → s.part.diameter.samples = [] →
            q.diameter.samples = (takeSample s.part).diameter.samples)
        ∧ (s.part.hasActive = false ∨ s.part.diameter.samples ≠ [] →
            q.diameter.samples = s.part.diameter.samples)
        ∧ HoldTested s.part.diameter.hold s.part q
        ∧ (s.part.diameter.hold = false → q.thin = true → s.part.feed.state = .feed ∨ s.part.feed.state = .approach →
            q.diameter.hold = true)
        ∧ (q.diameter.hold = s.part.diameter.hold → q.feed = s.part.feed)
        ∧ RaisesOnly [.diamReject, .stall] s.part q
        ∧ Follows { s.part with
            diameter := { s.part.diameter with gripWait := none, samples := q.diameter.samples } } q)

/-- DROP_TIMER_EXPIRY: the ACTIVE record is DROPPED with reference NONE, its ARMED entry PENDING, its drop count one more up to 15;
a bound cut stays bound and the carry goes on, MIXED where the end of the period changes source or correction; the feed goes to
IDLE; DROP is raised and STEM_STATE placed; the measuring units end the period, and nothing else changes. (Without a drop timer
nothing changes: log 17.) -/
def Obligations.DropTimerDropsTheStem : Prop :=
  ∀ s : State, Settled s.part → s.part.powered = true →
    (s.part.diameter.dropTimer = none → Runs .dropTimerExpiry s s.part)
    ∧ (∀ i r, s.part.diameter.dropTimer ≠ none → s.part.activeSlot = some i → s.part.recordAt i = some r →
        s.part.boot.resetPending = none ∨ s.part.link.busOff = false → ∃ q, Runs .dropTimerExpiry s q
        ∧ q.recordAt i = some { r with
            state := .dropped, reference := .none, entries := r.entries.map disarmEntry, dropCount := min (r.dropCount + 1) 15 }
        ∧ OtherSlotsKept s.part q i ∧ q.stemId i = s.part.stemId i ∧ q.table.bound = s.part.table.bound
        ∧ q.feed.value = .idle ∧ q.feed.state = .idle ∧ q.feed.held = none ∧ q.feed.corrections = 0
        ∧ q.feed.pendingDirect = false ∧ q.feed.request = .none
        ∧ q.raised .drop = true ∧ RaisesOnly [.drop] s.part q
        ∧ q.feed.seekSpent = false ∧ q.feed.stallOut = false
        ∧ (s.part.inForce = q.inForce → q.length.carry = s.part.length.carry)
        ∧ (s.part.inForce ≠ q.inForce → q.length.carry =
            s.part.length.carry.map fun c => { c with log := { c.log with mark := .mixed } })
        ∧ q.boot = s.part.boot
        ∧ Follows { s.part with
            table := q.table
            length := { s.part.length with
              logPos := none, history := none, mirror := false, suspect := false, slip := none, creep := none
              carry := q.length.carry }
            diameter := { s.part.diameter with
              distance := none, gripWait := none, samples := [], mid := .reset, dropTimer := none, entry := none
              hold := false }
            monitor := { s.part.monitor with guidance := .reset } } q
        ∧ (s.part.raised .drop = true ∨ s.part.link.mask.getLsbD Condition.drop.bit = true → s.part.link.busOff = false →
            q.link.sendList = (s.part.link.sendList ++
              [SendItem.notice (.stemState (s.part.stemId i) .dropped .drop (min (r.dropCount + 1) 15) none)]).take 16)
        ∧ (s.part.raised .drop = false → s.part.link.mask.getLsbD Condition.drop.bit = false →
            s.part.link.busOff = false →
            q.link.sendList = (s.part.link.sendList ++
              [SendItem.notice (.condition Condition.drop.word q.link.conditions),
                SendItem.notice (.stemState (s.part.stemId i) .dropped .drop (min (r.dropCount + 1) 15) none)]).take 16))

/-! ### Feed and saw -/

/-- SETTLE_TIMER_EXPIRY: the window test, on the log position in whole millimetres (log 9). With the saw PARKED and the
end-of-stroke switch open the feed that goes to CUT_WAIT has its request taken at once; outside the window with corrections left
the feed corrects toward the target. With no settle running nothing changes (log 17). -/
def Obligations.SettleEndsInCutOrCorrection : Prop :=
  ∀ s : State, Settled s.part → MotionGuarded s.part → s.part.powered = true →
    (s.part.feed.settle = none ∨ s.part.feed.state ≠ .settle → Runs .settleTimerExpiry s s.part)
    ∧ (s.part.feed.settle ≠ none → s.part.feed.state = .settle →
      (s.part.feed.held = none → s.part.feed.pendingDirect = false → ∃ q, Runs .settleTimerExpiry s q
        ∧ q.feed.state = q.decision ∧ Follows s.part q)
      ∧ (∀ e pos, s.part.feed.held = some e → s.part.logMm = some pos → s.part.feed.pendingDirect = false →
        s.part.feed.cutAsLies = false → s.part.feed.corrections < 2 →
        (pos < e.target - e.minus ∨ e.target + e.plus < pos) → ∃ q, Runs .settleTimerExpiry s q
          ∧ q.feed.state = .correct (if pos < e.target then .forward else .reverse)
          ∧ q.feed.corrections = s.part.feed.corrections + 1 ∧ q.feed.held = some e
          ∧ q.feed.watch = some { base := s.part.length.head, elapsed := 0 }
          ∧ q.link.conditions = s.part.link.conditions ∧ Follows s.part q)
      ∧ (∀ kind : CutKind, s.part.pins.endOfStroke = false →
        ((s.part.feed.pendingDirect = true ∧ kind = .direct)
          ∨ (s.part.feed.pendingDirect = false ∧ kind = .automatic ∧ ∃ e pos,
              s.part.feed.held = some e ∧ s.part.logMm = some pos
                ∧ (s.part.feed.cutAsLies = true ∨ 2 ≤ s.part.feed.corrections
                  ∨ (e.target - e.minus ≤ pos ∧ pos ≤ e.target + e.plus)))) → ∃ q, Runs .settleTimerExpiry s q
          ∧ q.feed.state = .cutWait ∧ q.feed.request = .taken kind ∧ q.feed.pendingDirect = false
          ∧ q.feed.cutAsLies = false
          ∧ q.saw.state = .advancing ∧ q.saw.cutTimer = some 0
          ∧ q.saw.cycle = some { owner := .part, kind, attempt := 1, cause := none, completionSeen := false
                                 commanded := false, fromFault := false }
          ∧ CutStarted kind s.part q ∧ HeadWork s.part q
          ∧ (s.part.beyondWindow = true → q.raised .overshoot = true)
          ∧ RaisesOnly (if s.part.beyondWindow then [.overshoot] else []) s.part q))

/-- STALL_TIMER_EXPIRY: the outcome by the state in which the stall is found. (That a recovery that already succeeds goes straight to its
placement: log 23. That the expiry changes nothing where no stall watch runs: log 17.) -/
def Obligations.StallOutcomeByState : Prop :=
  ∀ s : State, Settled s.part → s.part.powered = true →
    (s.part.feed.watch = none → Runs .stallTimerExpiry s s.part)
    ∧ (s.part.feed.watch ≠ none → ∃ q, Runs .stallTimerExpiry s q ∧ Follows s.part q
      ∧ q.feed.held = s.part.feed.held ∧ q.feed.corrections = s.part.feed.corrections
      ∧ (s.part.feed.state = .feed ∨ s.part.feed.state = .approach ∨ s.part.feed.state = .recover .forward →
          (s.part.setting 13 < (s.part.feed.attempts + 1 : Nat) →
            q.feed.state = .stalled ∧ q.feed.attempts = s.part.feed.attempts + 1
              ∧ q.feed.stallPoint = some s.part.length.head ∧ q.feed.stallOut = true ∧ q.raised .stall = true
              ∧ RaisesOnly [.stall] s.part q)
          ∧ ((s.part.feed.attempts + 1 : Nat) ≤ s.part.setting 13 →
            q.feed.state = .recover .back ∧ q.feed.attempts = s.part.feed.attempts + 1
              ∧ q.feed.stallPoint = some s.part.length.head ∧ q.link.conditions = s.part.link.conditions))
      ∧ (s.part.feed.state = .recover .back → s.part.recoverySucceeds = false →
          q.feed.state = .recover .forward ∧ q.feed.attempts = s.part.feed.attempts
            ∧ q.feed.stallPoint = s.part.feed.stallPoint ∧ q.link.conditions = s.part.link.conditions)
      ∧ (s.part.feed.state = .recover .back → s.part.recoverySucceeds = true →
          (∀ ph, q.feed.state ≠ .recover ph) ∧ q.feed.attempts = 0 ∧ RaisesOnly [.diamReject, .stall] s.part q
            ∧ (q.diameter.hold = false → q.feed.state = s.part.placement))
      ∧ ((∃ h, s.part.feed.state = .correct h) →
          q.feed.state = .settle ∧ q.feed.cutAsLies = true ∧ q.feed.settle = some 0
            ∧ q.link.conditions = s.part.link.conditions)
      ∧ (s.part.feed.state = .seek →
          q.feed.seekSpent = true ∧ q.feed.state = q.decision ∧ q.raised .noEnd = true
            ∧ RaisesOnly [.noEnd, .stall, .diamReject] s.part q))

/-- BAR_LEAVES_HOME from PARKED or FAULT begins a manual cycle, commanded under a takeover or an open expectation. A feed in motion
or SETTLE abandons it, and one whose cut request still waits withdraws it; in the other feed states the feed stays, but that GRIP
decides afresh where the cut takes its entry. In the other saw states only the level changes. -/
def Obligations.BarLeavesHomeBeginsAManualCycle : Prop :=
  ∀ s : State, Settled s.part → s.part.powered = true →
    (s.part.saw.state ≠ .parked → s.part.saw.state ≠ .fault →
      Runs .barLeavesHome s { s.part with pins := { s.part.pins with homeClosed := false } })
    ∧ (s.part.saw.state = .parked ∨ s.part.saw.state = .fault → ∃ q, Runs .barLeavesHome s q
      ∧ q.saw = { s.part.saw with
          state := .manual
          cycle := some { owner := .operator, kind := .manual, attempt := 0, cause := none, completionSeen := false
                          commanded := s.part.monitor.takeover.inForce || s.part.saw.expectation.isSome
                          fromFault := s.part.saw.state == .fault } }
      ∧ q.link.image.saw = (if s.part.monitor.takeover.inForce || s.part.saw.expectation.isSome then .none else .back)
      ∧ CutStarted .manual s.part q
      ∧ (s.part.feed.state.motion = true ∨ s.part.feed.state = .settle → q.feed.state = q.decision)
      ∧ (s.part.feed.state.motion = true ∨ s.part.feed.state = .settle ∨ s.part.feed.state = .cutWait →
          s.part.feed.cutTaken = false → q.feed.pendingDirect = false ∧ ∀ k, q.feed.request ≠ .waiting k)
      ∧ (s.part.feed.state = .cutWait → s.part.feed.cutTaken = false → q.feed.state = q.decision)
      ∧ (s.part.feed.state = .idle ∨ s.part.feed.state = .stalled ∨ s.part.feed.state = .manual
          ∨ (s.part.feed.state = .cutWait ∧ s.part.feed.cutTaken = true) → q.feed.state = s.part.feed.state)
      ∧ (s.part.feed.state = .grip → q.feed.state = .grip ∨ q.feed.state = q.decision)
      ∧ HeadWork { s.part with pins := { s.part.pins with homeClosed := false } } q
      ∧ RaisesOnly [.stall] s.part q)

/-- END_OF_STROKE: in ADVANCING the cut completes and the saw is RETURNING; in MANUAL the first one completes the cut and the saw
stays MANUAL; otherwise only the level changes. (The revision that CUT_DONE carries: log 30; that the log position is rebased
before the arming: log 12.) That no second record is ACTIVE is EveryStepKeepsTheStemTableLaws's: with one, a completion that finishes
the bound record would leave a feed with a record to decide for. -/
def Obligations.EndOfStrokeCompletesTheCut : Prop :=
  ∀ s : State, Settled s.part → OneActive s.part → s.part.powered = true →
    let level : Part := { s.part with pins := { s.part.pins with endOfStroke := true } }
    (s.part.saw.state ≠ .advancing → s.part.saw.state ≠ .manual → Runs .endOfStroke s level)
    ∧ (∀ c, s.part.saw.state = .manual → s.part.saw.cycle = some c → c.completionSeen = true → Runs .endOfStroke s level)
    ∧ (∀ c, s.part.saw.state = .advancing → s.part.saw.cycle = some c → s.part.pins.homeClosed = false →
        ∃ q, Runs .endOfStroke s q ∧ CutCompleted s.part q
        ∧ q.saw = { s.part.saw with
            state := .returning, cutTimer := none, returnTimer := some 0
            cycle := some { c with cause := some .completed, completionSeen := true } }
        ∧ q.link.image.saw = .back
        ∧ (s.part.feed.cutTaken = true → (∃ i, q.activeSlot = some i) → q.feed.state = q.decision ∧ q.feed.request = .none)
        ∧ HeadWork level q ∧ RaisesOnly [.filler, .planEmpty, .stall, .diamReject] s.part q)
    ∧ (∀ c, s.part.saw.state = .manual → s.part.saw.cycle = some c → c.completionSeen = false →
        ∃ q, Runs .endOfStroke s q ∧ CutCompleted s.part q
        ∧ q.saw = { s.part.saw with cycle := some { c with completionSeen := true, fromFault := false } }
        ∧ HeadWork level q ∧ RaisesOnly [.filler, .planEmpty, .stall, .diamReject] s.part q)

/-- BAR_HOME by saw state and cycle record: a completed return parks the saw; a first timeout whose request stands advances again;
a second gives FAULT; a manual cycle parks or aborts; a jam ends by its cause. A request that waits in CUT_WAIT is taken as the saw
parks. (That the end-of-stroke level opens with the bar at home: log 16.) -/
def Obligations.BarHomeEndsTheCycle : Prop :=
  ∀ s : State, Settled s.part → s.part.powered = true →
    let level : Part := { s.part with pins := { s.part.pins with homeClosed := true, endOfStroke := false } }
    let atHome (st : SawState) : Saw := { s.part.saw with state := st, cycle := none, cutTimer := none, returnTimer := none }
    (∀ k c, s.part.feed.request = .waiting k → s.part.feed.state = .cutWait → s.part.saw.state = .returning →
        s.part.saw.cycle = some c → c.cause = some .completed ∨ c.cause = some .firstTimeout → ∃ q, Runs .barHome s q
          ∧ q.saw = { s.part.saw with
              state := .advancing, cutTimer := some 0, returnTimer := none
              cycle := some { owner := .part, kind := k, attempt := 1, cause := none, completionSeen := false
                              commanded := false, fromFault := false } }
          ∧ CutStarted k s.part q ∧ q.feed.state = .cutWait ∧ q.feed.request = .taken k ∧ HeadWork level q)
    ∧ ((∀ k, s.part.feed.request ≠ .waiting k) →
      (s.part.saw.state = .parked ∨ s.part.saw.state = .advancing ∨ s.part.saw.state = .fault → Runs .barHome s level)
      ∧ (∀ c, s.part.saw.state = .returning → s.part.saw.cycle = some c →
          (c.cause = some .completed ∨ (c.cause = some .firstTimeout ∧ s.part.feed.request = .none) →
            ∃ q, Runs .barHome s q ∧ q.saw = atHome .parked ∧ (s.part.feed.state = .grip → q.feed.state = q.decision)
              ∧ (s.part.feed.state ≠ .grip → q.feed = s.part.feed)
              ∧ Follows { level with saw := q.saw } q ∧ RaisesOnly [.stall, .diamReject] s.part q)
          ∧ (∀ k, c.cause = some .firstTimeout → s.part.feed.request = .taken k → s.part.feed.state = .cutWait →
            ∃ q, Runs .barHome s q
              ∧ q.saw = { s.part.saw with
                  state := .advancing, cycle := some { c with kind := k, attempt := 2, cause := none }
                  cutTimer := some 0, returnTimer := none }
              ∧ CutStarted k s.part q ∧ q.feed.state = .cutWait ∧ q.feed.request = .taken k ∧ HeadWork level q)
          ∧ (c.cause = some .secondTimeout → ∃ q, Runs .barHome s q ∧ q.saw = atHome .fault ∧ q.feed = s.part.feed
              ∧ Follows { level with saw := q.saw } q))
      ∧ (∀ c, s.part.saw.state = .manual → s.part.saw.cycle = some c →
          (c.completionSeen = true → ∃ q, Runs .barHome s q ∧ q.saw = atHome .parked
            ∧ (s.part.feed.state = .grip → q.feed.state = q.decision)
            ∧ (s.part.feed.state ≠ .grip → q.feed = s.part.feed)
            ∧ Follows { level with saw := q.saw } q ∧ RaisesOnly [.stall, .diamReject] s.part q)
          ∧ (c.completionSeen = false → ∃ q, Runs .barHome s q
            ∧ q.saw = atHome (if c.fromFault then .fault else .parked) ∧ CutAborted s.part q
            ∧ (c.fromFault = false → s.part.feed.state = .grip → q.feed.state = q.decision)
            ∧ HeadWork level q ∧ RaisesOnly [.stall, .diamReject] s.part q))
      ∧ (s.part.saw.state = .jammed → ∃ q, Runs .barHome s q
          ∧ q.saw = atHome (match s.part.saw.cycle.bind (·.cause) with
              | none => .parked
              | some .completed => .parked
              | some .firstTimeout => .fault
              | some .secondTimeout => .fault)
          ∧ (q.saw.state = .parked → s.part.feed.state = .grip → q.feed.state = q.decision)
          ∧ (q.saw.state = .fault ∨ s.part.feed.state ≠ .grip → q.feed = s.part.feed)
          ∧ Follows { level with saw := q.saw } q ∧ RaisesOnly [.stall, .diamReject] s.part q))

/-- CUT_TIMER_EXPIRY in ADVANCING aborts the cut and returns the bar: at the first attempt the feed keeps its request, at the second
SAW_TIMEOUT is raised and the feed decides afresh. RETURN_TIMER_EXPIRY in RETURNING jams the saw with SAW_JAM. (Otherwise nothing:
log 17.) -/
def Obligations.SawTimeoutsReturnAndJam : Prop :=
  ∀ s : State, Settled s.part → s.part.powered = true →
    (s.part.saw.cutTimer = none ∨ s.part.saw.state ≠ .advancing → Runs .cutTimerExpiry s s.part)
    ∧ (s.part.saw.returnTimer = none ∨ s.part.saw.state ≠ .returning → Runs .returnTimerExpiry s s.part)
    ∧ (∀ c, s.part.saw.cutTimer ≠ none → s.part.saw.state = .advancing → s.part.saw.cycle = some c →
        s.part.pins.homeClosed = false → ∃ q, Runs .cutTimerExpiry s q ∧ CutAborted s.part q ∧ HeadWork s.part q
        ∧ q.link.image.saw = .back
        ∧ (c.attempt ≠ 2 →
            q.saw = { s.part.saw with
              state := .returning, cutTimer := none, returnTimer := some 0
              cycle := some { c with cause := some .firstTimeout } }
            ∧ (s.part.feed.state = .cutWait →
                q.feed.state = .cutWait ∧ q.feed.request = s.part.feed.request ∧ RaisesOnly [] s.part q)
            ∧ RaisesOnly [.stall, .diamReject] s.part q)
        ∧ (c.attempt = 2 →
            q.saw = { s.part.saw with
              state := .returning, cutTimer := none, returnTimer := some 0
              cycle := some { c with cause := some .secondTimeout } }
            ∧ q.raised .sawTimeout = true ∧ RaisesOnly [.sawTimeout, .stall, .diamReject] s.part q
            ∧ (s.part.feed.cutTaken = true → q.feed.state = q.decision ∧ q.feed.request = .none)))
    ∧ (s.part.saw.returnTimer ≠ none → s.part.saw.state = .returning → ∃ q, Runs .returnTimerExpiry s q
        ∧ q.saw = { s.part.saw with state := .jammed, returnTimer := none }
        ∧ q.raised .sawJam = true ∧ RaisesOnly [.sawJam, .stall] s.part q ∧ q.table = s.part.table
        ∧ (s.part.feed.cutTaken = true → q.feed.state = q.decision ∧ q.feed.request = .none)
        ∧ (s.part.feed.cutTaken = false → q.feed = s.part.feed)
        ∧ Follows { s.part with saw := q.saw } q)

/-- The ARMED entry that a cut takes at its start, and the flags of its results. -/
def Obligations.CutStartSettlesTheEntry : Prop :=
  ∀ (p : Part) (r : Record) (pos : Int), p.logMm = some pos →
    (∀ kind, r.armed = none → p.cutEntry r kind = none)
    ∧ (∀ e, r.armed = some e →
        p.cutEntry r .automatic = some e ∧ p.cutEntry r .direct = some e
        ∧ (e.plan.target - e.plan.minus ≤ pos → pos ≤ e.plan.target + e.plan.plus → p.cutEntry r .manual = some e)
        ∧ ((pos < e.plan.target - e.plan.minus ∨ e.plan.target + e.plan.plus < pos) →
            (12 ≤ r.entries.length → p.cutEntry r .manual = some e)
            ∧ (r.entries.length < 12 → p.cutEntry r .manual = none)))
    ∧ (∀ kind (e : Option Planned),
        (p.takeResults kind e).actual = pos ∧ (p.takeResults kind e).cutDia = p.currentDiameter
        ∧ (p.takeResults kind e).midDia = p.diameter.mid.capture
        ∧ (p.takeResults kind e).corrections = (if e = none then 0 else p.feed.corrections)
        ∧ ((p.takeResults kind e).flags.manual = true ↔ kind = .manual)
        ∧ (∀ x, e = some x →
            ((p.takeResults kind e).flags.short = true ↔ pos < x.target - x.minus)
            ∧ ((p.takeResults kind e).flags.long = true ↔ x.target + x.plus < pos)
            ∧ ((p.takeResults kind e).flags.direct = true ↔ kind = .direct))
        ∧ ∀ h, p.length.history = some h →
            (p.takeResults kind e).source = h.mark ∧ (p.takeResults kind e).flags.slip = h.slip
            ∧ (p.takeResults kind e).flags.creep = h.creep
            ∧ (p.takeResults kind e).rawWheel =
                (if h.mark = .wheel ∧ h.slip = false then some (h.raw.tdiv 1000) else none))

/-! ### Invariants -/

/-- Every step leaves a settled part settled, and a settled powered part holds what the rules ask at the end of every event: the image
the demands of the present states, the drop timer and the slip window as their conditions have them, no thin stem fed without a
hold, READY once every enabled line is OK, no refresh timer where no frames are sent. (The knives: KnivesFollowTheirRules; with
EveryStepKeepsMotionGuarded a forward or reverse demand stands only with the saw PARKED, no takeover and a working profile.) -/
def Obligations.EveryStepKeepsSettled : Prop :=
  (∀ s s' : State, Settled s.part → step s = .next s' → Settled s'.part)
    ∧ ∀ p : Part, Settled p → p.powered = true → WatchesKept p

/-- Every step keeps that at most one record is ACTIVE, that no list holds more than 12 entries, and that every species code named
by a record is the code of a valid species record. -/
def Obligations.EveryStepKeepsTheStemTableLaws : Prop :=
  ∀ s s' : State, OneActive s.part → ListsBounded s.part → SpeciesNamedValid s.part → step s = .next s' →
    OneActive s'.part ∧ ListsBounded s'.part ∧ SpeciesNamedValid s'.part

/-- Every step keeps the law of the production totals. -/
def Obligations.EveryStepKeepsTheTotals : Prop :=
  ∀ s s' : State, TotalsAgree s.part → step s = .next s' → TotalsAgree s'.part

/-- Every step keeps that the part moves the stem only with the saw PARKED, no takeover in force, in PROCESS or FELL_PROCESS. -/
def Obligations.EveryStepKeepsMotionGuarded : Prop :=
  ∀ s s' : State, MotionGuarded s.part → step s = .next s' → MotionGuarded s'.part

/-- Every step keeps every setting and species field within its range. -/
def Obligations.EveryStepKeepsValuesInRange : Prop :=
  ∀ s s' : State, CopiesInRange s.part → step s = .next s' → CopiesInRange s'.part

/-- Every step keeps the limits of the request queue and the send list. -/
def Obligations.EveryStepKeepsTheQueuesBounded : Prop :=
  ∀ s s' : State, QueuesBounded s.part → step s = .next s' → QueuesBounded s'.part

/-- The machine right after reset meets every invariant. -/
def Obligations.ResetMeetsTheInvariants : Prop :=
  Settled State.reset.part ∧ OneActive State.reset.part ∧ ListsBounded State.reset.part
    ∧ SpeciesNamedValid State.reset.part ∧ TotalsAgree State.reset.part ∧ MotionGuarded State.reset.part
    ∧ CopiesInRange State.reset.part ∧ QueuesBounded State.reset.part
end

