-- ==== Sys2Proof/Decode.lean ====
section
/-! DEFINITION. Decoding of table words. No row of spec/opcode_table.json gives bits: every row's "fields" is empty and none
has "fixed", so no word spells a command. The layouts of frames are in Machine/Operands.lean. -/

namespace Sys2Proof

/-- No row of the opcode table gives bits, so no word spells a command. -/
def decodeTableWord (_nbits _w : Nat) : Option Instr := none

end Sys2Proof
end

