-- ==== Sys2Proof/Laws/State.lean ====
section
/-! SUPPORT. One lemma per field for each named update of the part, so that no proof unfolds a record update. -/

namespace Sys2Proof.Machine

/-! ### setRecord -/

@[simp] theorem setRecord_powered (i : Fin 8) (r : Option Record) (p : Part) : (p.setRecord i r).powered = p.powered := rfl
@[simp] theorem setRecord_draws (i : Fin 8) (r : Option Record) (p : Part) : (p.setRecord i r).draws = p.draws := rfl
@[simp] theorem setRecord_pins (i : Fin 8) (r : Option Record) (p : Part) : (p.setRecord i r).pins = p.pins := rfl
@[simp] theorem setRecord_boot (i : Fin 8) (r : Option Record) (p : Part) : (p.setRecord i r).boot = p.boot := rfl
@[simp] theorem setRecord_length (i : Fin 8) (r : Option Record) (p : Part) : (p.setRecord i r).length = p.length := rfl
@[simp] theorem setRecord_diameter (i : Fin 8) (r : Option Record) (p : Part) : (p.setRecord i r).diameter = p.diameter := rfl
@[simp] theorem setRecord_feed (i : Fin 8) (r : Option Record) (p : Part) : (p.setRecord i r).feed = p.feed := rfl
@[simp] theorem setRecord_saw (i : Fin 8) (r : Option Record) (p : Part) : (p.setRecord i r).saw = p.saw := rfl
@[simp] theorem setRecord_knife (i : Fin 8) (r : Option Record) (p : Part) : (p.setRecord i r).knife = p.knife := rfl
@[simp] theorem setRecord_monitor (i : Fin 8) (r : Option Record) (p : Part) : (p.setRecord i r).monitor = p.monitor := rfl
@[simp] theorem setRecord_store (i : Fin 8) (r : Option Record) (p : Part) : (p.setRecord i r).store = p.store := rfl
@[simp] theorem setRecord_link (i : Fin 8) (r : Option Record) (p : Part) : (p.setRecord i r).link = p.link := rfl

/-! ### mapRecord -/

@[simp] theorem mapRecord_powered (i : Fin 8) (f : Record → Record) (p : Part) : (p.mapRecord i f).powered = p.powered := rfl
@[simp] theorem mapRecord_draws (i : Fin 8) (f : Record → Record) (p : Part) : (p.mapRecord i f).draws = p.draws := rfl
@[simp] theorem mapRecord_pins (i : Fin 8) (f : Record → Record) (p : Part) : (p.mapRecord i f).pins = p.pins := rfl
@[simp] theorem mapRecord_boot (i : Fin 8) (f : Record → Record) (p : Part) : (p.mapRecord i f).boot = p.boot := rfl
@[simp] theorem mapRecord_length (i : Fin 8) (f : Record → Record) (p : Part) : (p.mapRecord i f).length = p.length := rfl
@[simp] theorem mapRecord_diameter (i : Fin 8) (f : Record → Record) (p : Part) : (p.mapRecord i f).diameter = p.diameter := rfl
@[simp] theorem mapRecord_feed (i : Fin 8) (f : Record → Record) (p : Part) : (p.mapRecord i f).feed = p.feed := rfl
@[simp] theorem mapRecord_saw (i : Fin 8) (f : Record → Record) (p : Part) : (p.mapRecord i f).saw = p.saw := rfl
@[simp] theorem mapRecord_knife (i : Fin 8) (f : Record → Record) (p : Part) : (p.mapRecord i f).knife = p.knife := rfl
@[simp] theorem mapRecord_monitor (i : Fin 8) (f : Record → Record) (p : Part) : (p.mapRecord i f).monitor = p.monitor := rfl
@[simp] theorem mapRecord_store (i : Fin 8) (f : Record → Record) (p : Part) : (p.mapRecord i f).store = p.store := rfl
@[simp] theorem mapRecord_link (i : Fin 8) (f : Record → Record) (p : Part) : (p.mapRecord i f).link = p.link := rfl

/-! ### setLine -/

@[simp] theorem setLine_powered (l : Line) (u : LineUnit) (p : Part) : (p.setLine l u).powered = p.powered := rfl
@[simp] theorem setLine_draws (l : Line) (u : LineUnit) (p : Part) : (p.setLine l u).draws = p.draws := rfl
@[simp] theorem setLine_pins (l : Line) (u : LineUnit) (p : Part) : (p.setLine l u).pins = p.pins := rfl
@[simp] theorem setLine_boot (l : Line) (u : LineUnit) (p : Part) : (p.setLine l u).boot = p.boot := rfl
@[simp] theorem setLine_table (l : Line) (u : LineUnit) (p : Part) : (p.setLine l u).table = p.table := rfl
@[simp] theorem setLine_length (l : Line) (u : LineUnit) (p : Part) : (p.setLine l u).length = p.length := rfl
@[simp] theorem setLine_feed (l : Line) (u : LineUnit) (p : Part) : (p.setLine l u).feed = p.feed := rfl
@[simp] theorem setLine_saw (l : Line) (u : LineUnit) (p : Part) : (p.setLine l u).saw = p.saw := rfl
@[simp] theorem setLine_knife (l : Line) (u : LineUnit) (p : Part) : (p.setLine l u).knife = p.knife := rfl
@[simp] theorem setLine_monitor (l : Line) (u : LineUnit) (p : Part) : (p.setLine l u).monitor = p.monitor := rfl
@[simp] theorem setLine_store (l : Line) (u : LineUnit) (p : Part) : (p.setLine l u).store = p.store := rfl
@[simp] theorem setLine_link (l : Line) (u : LineUnit) (p : Part) : (p.setLine l u).link = p.link := rfl

/-! ### place -/

@[simp] theorem place_powered (n : Notice) (p : Part) : (place n p).powered = p.powered := rfl
@[simp] theorem place_draws (n : Notice) (p : Part) : (place n p).draws = p.draws := rfl
@[simp] theorem place_pins (n : Notice) (p : Part) : (place n p).pins = p.pins := rfl
@[simp] theorem place_boot (n : Notice) (p : Part) : (place n p).boot = p.boot := rfl
@[simp] theorem place_table (n : Notice) (p : Part) : (place n p).table = p.table := rfl
@[simp] theorem place_length (n : Notice) (p : Part) : (place n p).length = p.length := rfl
@[simp] theorem place_diameter (n : Notice) (p : Part) : (place n p).diameter = p.diameter := rfl
@[simp] theorem place_feed (n : Notice) (p : Part) : (place n p).feed = p.feed := rfl
@[simp] theorem place_saw (n : Notice) (p : Part) : (place n p).saw = p.saw := rfl
@[simp] theorem place_knife (n : Notice) (p : Part) : (place n p).knife = p.knife := rfl
@[simp] theorem place_monitor (n : Notice) (p : Part) : (place n p).monitor = p.monitor := rfl
@[simp] theorem place_store (n : Notice) (p : Part) : (place n p).store = p.store := rfl
@[simp] theorem place_link_node (n : Notice) (p : Part) : (place n p).link.node = p.link.node := rfl
@[simp] theorem place_link_requests (n : Notice) (p : Part) : (place n p).link.requests = p.link.requests := rfl
@[simp] theorem place_link_conditions (n : Notice) (p : Part) : (place n p).link.conditions = p.link.conditions := rfl
@[simp] theorem place_link_mask (n : Notice) (p : Part) : (place n p).link.mask = p.link.mask := rfl
@[simp] theorem place_link_image (n : Notice) (p : Part) : (place n p).link.image = p.link.image := rfl
@[simp] theorem place_link_valve (n : Notice) (p : Part) : (place n p).link.valve = p.link.valve := rfl
@[simp] theorem place_link_refresh (n : Notice) (p : Part) : (place n p).link.refresh = p.link.refresh := rfl
@[simp] theorem place_link_errors (n : Notice) (p : Part) : (place n p).link.errors = p.link.errors := rfl
@[simp] theorem place_link_busOff (n : Notice) (p : Part) : (place n p).link.busOff = p.link.busOff := rfl
@[simp] theorem place_link_lastSent (n : Notice) (p : Part) : (place n p).link.lastSent = p.link.lastSent := rfl

/-! ### raise -/

@[simp] theorem raise_powered (c : Condition) (p : Part) : (raise c p).powered = p.powered := rfl
@[simp] theorem raise_draws (c : Condition) (p : Part) : (raise c p).draws = p.draws := rfl
@[simp] theorem raise_pins (c : Condition) (p : Part) : (raise c p).pins = p.pins := rfl
@[simp] theorem raise_boot (c : Condition) (p : Part) : (raise c p).boot = p.boot := rfl
@[simp] theorem raise_table (c : Condition) (p : Part) : (raise c p).table = p.table := rfl
@[simp] theorem raise_length (c : Condition) (p : Part) : (raise c p).length = p.length := rfl
@[simp] theorem raise_diameter (c : Condition) (p : Part) : (raise c p).diameter = p.diameter := rfl
@[simp] theorem raise_feed (c : Condition) (p : Part) : (raise c p).feed = p.feed := rfl
@[simp] theorem raise_saw (c : Condition) (p : Part) : (raise c p).saw = p.saw := rfl
@[simp] theorem raise_knife (c : Condition) (p : Part) : (raise c p).knife = p.knife := rfl
@[simp] theorem raise_monitor (c : Condition) (p : Part) : (raise c p).monitor = p.monitor := rfl
@[simp] theorem raise_store (c : Condition) (p : Part) : (raise c p).store = p.store := rfl
@[simp] theorem raise_link_node (c : Condition) (p : Part) : (raise c p).link.node = p.link.node := rfl
@[simp] theorem raise_link_requests (c : Condition) (p : Part) : (raise c p).link.requests = p.link.requests := rfl
@[simp] theorem raise_link_mask (c : Condition) (p : Part) : (raise c p).link.mask = p.link.mask := rfl
@[simp] theorem raise_link_image (c : Condition) (p : Part) : (raise c p).link.image = p.link.image := rfl
@[simp] theorem raise_link_valve (c : Condition) (p : Part) : (raise c p).link.valve = p.link.valve := rfl
@[simp] theorem raise_link_refresh (c : Condition) (p : Part) : (raise c p).link.refresh = p.link.refresh := rfl
@[simp] theorem raise_link_errors (c : Condition) (p : Part) : (raise c p).link.errors = p.link.errors := rfl
@[simp] theorem raise_link_busOff (c : Condition) (p : Part) : (raise c p).link.busOff = p.link.busOff := rfl
@[simp] theorem raise_link_lastSent (c : Condition) (p : Part) : (raise c p).link.lastSent = p.link.lastSent := rfl

/-! ### clearConditions -/

@[simp] theorem clearConditions_powered (m : Word16) (p : Part) : (clearConditions m p).powered = p.powered := rfl
@[simp] theorem clearConditions_draws (m : Word16) (p : Part) : (clearConditions m p).draws = p.draws := rfl
@[simp] theorem clearConditions_pins (m : Word16) (p : Part) : (clearConditions m p).pins = p.pins := rfl
@[simp] theorem clearConditions_boot (m : Word16) (p : Part) : (clearConditions m p).boot = p.boot := rfl
@[simp] theorem clearConditions_table (m : Word16) (p : Part) : (clearConditions m p).table = p.table := rfl
@[simp] theorem clearConditions_length (m : Word16) (p : Part) : (clearConditions m p).length = p.length := rfl
@[simp] theorem clearConditions_diameter (m : Word16) (p : Part) : (clearConditions m p).diameter = p.diameter := rfl
@[simp] theorem clearConditions_feed (m : Word16) (p : Part) : (clearConditions m p).feed = p.feed := rfl
@[simp] theorem clearConditions_saw (m : Word16) (p : Part) : (clearConditions m p).saw = p.saw := rfl
@[simp] theorem clearConditions_knife (m : Word16) (p : Part) : (clearConditions m p).knife = p.knife := rfl
@[simp] theorem clearConditions_monitor (m : Word16) (p : Part) : (clearConditions m p).monitor = p.monitor := rfl
@[simp] theorem clearConditions_store (m : Word16) (p : Part) : (clearConditions m p).store = p.store := rfl
@[simp] theorem clearConditions_link_node (m : Word16) (p : Part) : (clearConditions m p).link.node = p.link.node := rfl
@[simp] theorem clearConditions_link_requests (m : Word16) (p : Part) : (clearConditions m p).link.requests = p.link.requests := rfl
@[simp] theorem clearConditions_link_sendList (m : Word16) (p : Part) : (clearConditions m p).link.sendList = p.link.sendList := rfl
@[simp] theorem clearConditions_link_mask (m : Word16) (p : Part) : (clearConditions m p).link.mask = p.link.mask := rfl
@[simp] theorem clearConditions_link_image (m : Word16) (p : Part) : (clearConditions m p).link.image = p.link.image := rfl
@[simp] theorem clearConditions_link_valve (m : Word16) (p : Part) : (clearConditions m p).link.valve = p.link.valve := rfl
@[simp] theorem clearConditions_link_refresh (m : Word16) (p : Part) : (clearConditions m p).link.refresh = p.link.refresh := rfl
@[simp] theorem clearConditions_link_errors (m : Word16) (p : Part) : (clearConditions m p).link.errors = p.link.errors := rfl
@[simp] theorem clearConditions_link_busOff (m : Word16) (p : Part) : (clearConditions m p).link.busOff = p.link.busOff := rfl
@[simp] theorem clearConditions_link_lastSent (m : Word16) (p : Part) : (clearConditions m p).link.lastSent = p.link.lastSent := rfl

/-! ### answered -/

@[simp] theorem answered_powered (old : List SendItem) (a : Answer) (p : Part) : (answered old a p).powered = p.powered := rfl
@[simp] theorem answered_draws (old : List SendItem) (a : Answer) (p : Part) : (answered old a p).draws = p.draws := rfl
@[simp] theorem answered_pins (old : List SendItem) (a : Answer) (p : Part) : (answered old a p).pins = p.pins := rfl
@[simp] theorem answered_boot (old : List SendItem) (a : Answer) (p : Part) : (answered old a p).boot = p.boot := rfl
@[simp] theorem answered_table (old : List SendItem) (a : Answer) (p : Part) : (answered old a p).table = p.table := rfl
@[simp] theorem answered_length (old : List SendItem) (a : Answer) (p : Part) : (answered old a p).length = p.length := rfl
@[simp] theorem answered_diameter (old : List SendItem) (a : Answer) (p : Part) : (answered old a p).diameter = p.diameter := rfl
@[simp] theorem answered_feed (old : List SendItem) (a : Answer) (p : Part) : (answered old a p).feed = p.feed := rfl
@[simp] theorem answered_saw (old : List SendItem) (a : Answer) (p : Part) : (answered old a p).saw = p.saw := rfl
@[simp] theorem answered_knife (old : List SendItem) (a : Answer) (p : Part) : (answered old a p).knife = p.knife := rfl
@[simp] theorem answered_monitor (old : List SendItem) (a : Answer) (p : Part) : (answered old a p).monitor = p.monitor := rfl
@[simp] theorem answered_store (old : List SendItem) (a : Answer) (p : Part) : (answered old a p).store = p.store := rfl
@[simp] theorem answered_link_node (old : List SendItem) (a : Answer) (p : Part) : (answered old a p).link.node = p.link.node := rfl
@[simp] theorem answered_link_requests (old : List SendItem) (a : Answer) (p : Part) : (answered old a p).link.requests = p.link.requests := rfl
@[simp] theorem answered_link_conditions (old : List SendItem) (a : Answer) (p : Part) : (answered old a p).link.conditions = p.link.conditions := rfl
@[simp] theorem answered_link_mask (old : List SendItem) (a : Answer) (p : Part) : (answered old a p).link.mask = p.link.mask := rfl
@[simp] theorem answered_link_image (old : List SendItem) (a : Answer) (p : Part) : (answered old a p).link.image = p.link.image := rfl
@[simp] theorem answered_link_valve (old : List SendItem) (a : Answer) (p : Part) : (answered old a p).link.valve = p.link.valve := rfl
@[simp] theorem answered_link_refresh (old : List SendItem) (a : Answer) (p : Part) : (answered old a p).link.refresh = p.link.refresh := rfl
@[simp] theorem answered_link_errors (old : List SendItem) (a : Answer) (p : Part) : (answered old a p).link.errors = p.link.errors := rfl
@[simp] theorem answered_link_busOff (old : List SendItem) (a : Answer) (p : Part) : (answered old a p).link.busOff = p.link.busOff := rfl
@[simp] theorem answered_link_lastSent (old : List SendItem) (a : Answer) (p : Part) : (answered old a p).link.lastSent = p.link.lastSent := rfl

/-! ### placeDemands -/

@[simp] theorem placeDemands_powered (p : Part) : (placeDemands p).powered = p.powered := rfl
@[simp] theorem placeDemands_draws (p : Part) : (placeDemands p).draws = p.draws := rfl
@[simp] theorem placeDemands_pins (p : Part) : (placeDemands p).pins = p.pins := rfl
@[simp] theorem placeDemands_boot (p : Part) : (placeDemands p).boot = p.boot := rfl
@[simp] theorem placeDemands_table (p : Part) : (placeDemands p).table = p.table := rfl
@[simp] theorem placeDemands_length (p : Part) : (placeDemands p).length = p.length := rfl
@[simp] theorem placeDemands_diameter (p : Part) : (placeDemands p).diameter = p.diameter := rfl
@[simp] theorem placeDemands_feed (p : Part) : (placeDemands p).feed = p.feed := rfl
@[simp] theorem placeDemands_saw (p : Part) : (placeDemands p).saw = p.saw := rfl
@[simp] theorem placeDemands_knife (p : Part) : (placeDemands p).knife = p.knife := rfl
@[simp] theorem placeDemands_monitor (p : Part) : (placeDemands p).monitor = p.monitor := rfl
@[simp] theorem placeDemands_store (p : Part) : (placeDemands p).store = p.store := rfl
@[simp] theorem placeDemands_link_node (p : Part) : (placeDemands p).link.node = p.link.node := rfl
@[simp] theorem placeDemands_link_requests (p : Part) : (placeDemands p).link.requests = p.link.requests := rfl
@[simp] theorem placeDemands_link_sendList (p : Part) : (placeDemands p).link.sendList = p.link.sendList := rfl
@[simp] theorem placeDemands_link_conditions (p : Part) : (placeDemands p).link.conditions = p.link.conditions := rfl
@[simp] theorem placeDemands_link_mask (p : Part) : (placeDemands p).link.mask = p.link.mask := rfl
@[simp] theorem placeDemands_link_valve (p : Part) : (placeDemands p).link.valve = p.link.valve := rfl
@[simp] theorem placeDemands_link_refresh (p : Part) : (placeDemands p).link.refresh = p.link.refresh := rfl
@[simp] theorem placeDemands_link_errors (p : Part) : (placeDemands p).link.errors = p.link.errors := rfl
@[simp] theorem placeDemands_link_busOff (p : Part) : (placeDemands p).link.busOff = p.link.busOff := rfl
@[simp] theorem placeDemands_link_lastSent (p : Part) : (placeDemands p).link.lastSent = p.link.lastSent := rfl

/-! ### buildFrame -/

@[simp] theorem buildFrame_powered (p : Part) : (buildFrame p).powered = p.powered := rfl
@[simp] theorem buildFrame_draws (p : Part) : (buildFrame p).draws = p.draws := rfl
@[simp] theorem buildFrame_pins (p : Part) : (buildFrame p).pins = p.pins := rfl
@[simp] theorem buildFrame_boot (p : Part) : (buildFrame p).boot = p.boot := rfl
@[simp] theorem buildFrame_table (p : Part) : (buildFrame p).table = p.table := rfl
@[simp] theorem buildFrame_length (p : Part) : (buildFrame p).length = p.length := rfl
@[simp] theorem buildFrame_diameter (p : Part) : (buildFrame p).diameter = p.diameter := rfl
@[simp] theorem buildFrame_feed (p : Part) : (buildFrame p).feed = p.feed := rfl
@[simp] theorem buildFrame_saw (p : Part) : (buildFrame p).saw = p.saw := rfl
@[simp] theorem buildFrame_knife (p : Part) : (buildFrame p).knife = p.knife := rfl
@[simp] theorem buildFrame_monitor (p : Part) : (buildFrame p).monitor = p.monitor := rfl
@[simp] theorem buildFrame_store (p : Part) : (buildFrame p).store = p.store := rfl
@[simp] theorem buildFrame_link_node (p : Part) : (buildFrame p).link.node = p.link.node := rfl
@[simp] theorem buildFrame_link_requests (p : Part) : (buildFrame p).link.requests = p.link.requests := rfl
@[simp] theorem buildFrame_link_sendList (p : Part) : (buildFrame p).link.sendList = p.link.sendList := rfl
@[simp] theorem buildFrame_link_conditions (p : Part) : (buildFrame p).link.conditions = p.link.conditions := rfl
@[simp] theorem buildFrame_link_mask (p : Part) : (buildFrame p).link.mask = p.link.mask := rfl
@[simp] theorem buildFrame_link_image (p : Part) : (buildFrame p).link.image = p.link.image := rfl
@[simp] theorem buildFrame_link_errors (p : Part) : (buildFrame p).link.errors = p.link.errors := rfl
@[simp] theorem buildFrame_link_busOff (p : Part) : (buildFrame p).link.busOff = p.link.busOff := rfl
@[simp] theorem buildFrame_link_lastSent (p : Part) : (buildFrame p).link.lastSent = p.link.lastSent := rfl

/-! ### concludeList -/

@[simp] theorem concludeList_powered (p : Part) : (concludeList p).powered = p.powered := rfl
@[simp] theorem concludeList_draws (p : Part) : (concludeList p).draws = p.draws := rfl
@[simp] theorem concludeList_pins (p : Part) : (concludeList p).pins = p.pins := rfl
@[simp] theorem concludeList_boot (p : Part) : (concludeList p).boot = p.boot := rfl
@[simp] theorem concludeList_table (p : Part) : (concludeList p).table = p.table := rfl
@[simp] theorem concludeList_length (p : Part) : (concludeList p).length = p.length := rfl
@[simp] theorem concludeList_diameter (p : Part) : (concludeList p).diameter = p.diameter := rfl
@[simp] theorem concludeList_feed (p : Part) : (concludeList p).feed = p.feed := rfl
@[simp] theorem concludeList_saw (p : Part) : (concludeList p).saw = p.saw := rfl
@[simp] theorem concludeList_knife (p : Part) : (concludeList p).knife = p.knife := rfl
@[simp] theorem concludeList_monitor (p : Part) : (concludeList p).monitor = p.monitor := rfl
@[simp] theorem concludeList_store (p : Part) : (concludeList p).store = p.store := rfl
@[simp] theorem concludeList_link_node (p : Part) : (concludeList p).link.node = p.link.node := rfl
@[simp] theorem concludeList_link_requests (p : Part) : (concludeList p).link.requests = p.link.requests := rfl
@[simp] theorem concludeList_link_conditions (p : Part) : (concludeList p).link.conditions = p.link.conditions := rfl
@[simp] theorem concludeList_link_mask (p : Part) : (concludeList p).link.mask = p.link.mask := rfl
@[simp] theorem concludeList_link_image (p : Part) : (concludeList p).link.image = p.link.image := rfl
@[simp] theorem concludeList_link_valve (p : Part) : (concludeList p).link.valve = p.link.valve := rfl
@[simp] theorem concludeList_link_refresh (p : Part) : (concludeList p).link.refresh = p.link.refresh := rfl
@[simp] theorem concludeList_link_errors (p : Part) : (concludeList p).link.errors = p.link.errors := rfl
@[simp] theorem concludeList_link_busOff (p : Part) : (concludeList p).link.busOff = p.link.busOff := rfl
@[simp] theorem concludeList_link_lastSent (p : Part) : (concludeList p).link.lastSent = p.link.lastSent := rfl

/-! ### knifeSync -/

@[simp] theorem knifeSync_powered (p : Part) : (knifeSync p).powered = p.powered := rfl
@[simp] theorem knifeSync_draws (p : Part) : (knifeSync p).draws = p.draws := rfl
@[simp] theorem knifeSync_pins (p : Part) : (knifeSync p).pins = p.pins := rfl
@[simp] theorem knifeSync_boot (p : Part) : (knifeSync p).boot = p.boot := rfl
@[simp] theorem knifeSync_table (p : Part) : (knifeSync p).table = p.table := rfl
@[simp] theorem knifeSync_length (p : Part) : (knifeSync p).length = p.length := rfl
@[simp] theorem knifeSync_diameter (p : Part) : (knifeSync p).diameter = p.diameter := rfl
@[simp] theorem knifeSync_feed (p : Part) : (knifeSync p).feed = p.feed := rfl
@[simp] theorem knifeSync_saw (p : Part) : (knifeSync p).saw = p.saw := rfl
@[simp] theorem knifeSync_monitor (p : Part) : (knifeSync p).monitor = p.monitor := rfl
@[simp] theorem knifeSync_store (p : Part) : (knifeSync p).store = p.store := rfl
@[simp] theorem knifeSync_link (p : Part) : (knifeSync p).link = p.link := rfl

/-! ### dropWatch -/

@[simp] theorem dropWatch_powered (p : Part) : (dropWatch p).powered = p.powered := rfl
@[simp] theorem dropWatch_draws (p : Part) : (dropWatch p).draws = p.draws := rfl
@[simp] theorem dropWatch_pins (p : Part) : (dropWatch p).pins = p.pins := rfl
@[simp] theorem dropWatch_boot (p : Part) : (dropWatch p).boot = p.boot := rfl
@[simp] theorem dropWatch_table (p : Part) : (dropWatch p).table = p.table := rfl
@[simp] theorem dropWatch_length (p : Part) : (dropWatch p).length = p.length := rfl
@[simp] theorem dropWatch_feed (p : Part) : (dropWatch p).feed = p.feed := rfl
@[simp] theorem dropWatch_saw (p : Part) : (dropWatch p).saw = p.saw := rfl
@[simp] theorem dropWatch_knife (p : Part) : (dropWatch p).knife = p.knife := rfl
@[simp] theorem dropWatch_monitor (p : Part) : (dropWatch p).monitor = p.monitor := rfl
@[simp] theorem dropWatch_store (p : Part) : (dropWatch p).store = p.store := rfl
@[simp] theorem dropWatch_link (p : Part) : (dropWatch p).link = p.link := rfl

/-! ### slipSync -/

@[simp] theorem slipSync_powered (p : Part) : (slipSync p).powered = p.powered := rfl
@[simp] theorem slipSync_draws (p : Part) : (slipSync p).draws = p.draws := rfl
@[simp] theorem slipSync_pins (p : Part) : (slipSync p).pins = p.pins := rfl
@[simp] theorem slipSync_boot (p : Part) : (slipSync p).boot = p.boot := rfl
@[simp] theorem slipSync_table (p : Part) : (slipSync p).table = p.table := rfl
@[simp] theorem slipSync_diameter (p : Part) : (slipSync p).diameter = p.diameter := rfl
@[simp] theorem slipSync_feed (p : Part) : (slipSync p).feed = p.feed := rfl
@[simp] theorem slipSync_saw (p : Part) : (slipSync p).saw = p.saw := rfl
@[simp] theorem slipSync_knife (p : Part) : (slipSync p).knife = p.knife := rfl
@[simp] theorem slipSync_monitor (p : Part) : (slipSync p).monitor = p.monitor := rfl
@[simp] theorem slipSync_store (p : Part) : (slipSync p).store = p.store := rfl
@[simp] theorem slipSync_link (p : Part) : (slipSync p).link = p.link := rfl

/-! ### newLog -/

@[simp] theorem newLog_lines (d : DiameterUnit) : d.newLog.lines = d.lines := rfl
@[simp] theorem newLog_distance (d : DiameterUnit) : d.newLog.distance = d.distance := rfl
@[simp] theorem newLog_gripWait (d : DiameterUnit) : d.newLog.gripWait = d.gripWait := rfl
@[simp] theorem newLog_samples (d : DiameterUnit) : d.newLog.samples = d.samples := rfl
@[simp] theorem newLog_dropTimer (d : DiameterUnit) : d.newLog.dropTimer = d.dropTimer := rfl
@[simp] theorem newLog_entry (d : DiameterUnit) : d.newLog.entry = d.entry := rfl
@[simp] theorem newLog_hold (d : DiameterUnit) : d.newLog.hold = d.hold := rfl
@[simp] theorem newLog_capture (d : DiameterUnit) : d.newLog.mid.capture = none := rfl
@[simp] theorem newLog_crossed (d : DiameterUnit) : d.newLog.mid.crossed = false := rfl
@[simp] theorem newLog_target (d : DiameterUnit) :
    d.newLog.mid.target = if d.entry.isSome then d.mid.target else none := rfl

end Sys2Proof.Machine
end

