-- ==== Sys2Proof/Laws/Feed.lean ====
section
/-! SUPPORT. What the feed controller's shared operations can do: each of them is `FeedOnly`. -/

namespace Sys2Proof.Machine

/-! ### `FeedOnly` -/

theorem FeedOnly.rfl (p : Part) : FeedOnly p p := by simp [FeedOnly]

theorem FeedOnly.trans {p q r : Part} (h : FeedOnly p q) (k : FeedOnly q r) : FeedOnly p r := by
  unfold FeedOnly at *
  rw [h] at k
  exact k

theorem FeedOnly.of_feed (p : Part) (f : Feed) : FeedOnly p { p with feed := f } := by simp [FeedOnly]

theorem FeedOnly.of_raise (c : Condition) (p : Part) : FeedOnly p (raise c p) := by simp [FeedOnly, raise]

theorem FeedOnly.powered {p q : Part} (h : FeedOnly p q) : q.powered = p.powered := by rw [h]
theorem FeedOnly.draws {p q : Part} (h : FeedOnly p q) : q.draws = p.draws := by rw [h]
theorem FeedOnly.pins {p q : Part} (h : FeedOnly p q) : q.pins = p.pins := by rw [h]
theorem FeedOnly.boot {p q : Part} (h : FeedOnly p q) : q.boot = p.boot := by rw [h]
theorem FeedOnly.table {p q : Part} (h : FeedOnly p q) : q.table = p.table := by rw [h]
theorem FeedOnly.diameter {p q : Part} (h : FeedOnly p q) : q.diameter = p.diameter := by rw [h]
theorem FeedOnly.saw {p q : Part} (h : FeedOnly p q) : q.saw = p.saw := by rw [h]
theorem FeedOnly.knife {p q : Part} (h : FeedOnly p q) : q.knife = p.knife := by rw [h]
theorem FeedOnly.monitor {p q : Part} (h : FeedOnly p q) : q.monitor = p.monitor := by rw [h]
theorem FeedOnly.store {p q : Part} (h : FeedOnly p q) : q.store = p.store := by rw [h]
theorem FeedOnly.node {p q : Part} (h : FeedOnly p q) : q.link.node = p.link.node := by rw [h]
theorem FeedOnly.requests {p q : Part} (h : FeedOnly p q) : q.link.requests = p.link.requests := by rw [h]
theorem FeedOnly.busOff {p q : Part} (h : FeedOnly p q) : q.link.busOff = p.link.busOff := by rw [h]
theorem FeedOnly.logPos {p q : Part} (h : FeedOnly p q) : q.length.logPos = p.length.logPos := by rw [h]
theorem FeedOnly.carry {p q : Part} (h : FeedOnly p q) : q.length.carry = p.length.carry := by rw [h]
theorem FeedOnly.head {p q : Part} (h : FeedOnly p q) : q.length.head = p.length.head := by rw [h]

/-! ### Entering and deciding -/

theorem enterFeed_feedOnly (st : FeedState) (p : Part) : FeedOnly p (enterFeed st p) := by
  unfold enterFeed
  split
  · exact .rfl p
  · dsimp only
    split <;> simp [FeedOnly, raise]

/-- After entering a state the feed is in it. -/
@[simp] theorem enterFeed_state (st : FeedState) (p : Part) : (enterFeed st p).feed.state = st := by
  unfold enterFeed
  split
  · next h => exact h.symm
  · dsimp only
    split <;> rfl

/-- Entering a state keeps the control value. -/
@[simp] theorem enterFeed_value (st : FeedState) (p : Part) : (enterFeed st p).feed.value = p.feed.value := by
  unfold enterFeed
  split
  · rfl
  · dsimp only
    split <;> rfl

/-- Entering a state keeps the held entry. -/
@[simp] theorem enterFeed_held (st : FeedState) (p : Part) : (enterFeed st p).feed.held = p.feed.held := by
  unfold enterFeed
  split
  · rfl
  · dsimp only
    split <;> rfl

/-- Entering a state keeps the correction count. -/
@[simp] theorem enterFeed_corrections (st : FeedState) (p : Part) :
    (enterFeed st p).feed.corrections = p.feed.corrections := by
  unfold enterFeed
  split
  · rfl
  · dsimp only
    split <;> rfl

/-- Entering a state keeps the pending direct cut. -/
@[simp] theorem enterFeed_pendingDirect (st : FeedState) (p : Part) :
    (enterFeed st p).feed.pendingDirect = p.feed.pendingDirect := by
  unfold enterFeed
  split
  · rfl
  · dsimp only
    split <;> rfl

/-- Entering a state keeps the seek-spent mark. -/
@[simp] theorem enterFeed_seekSpent (st : FeedState) (p : Part) : (enterFeed st p).feed.seekSpent = p.feed.seekSpent := by
  unfold enterFeed
  split
  · rfl
  · dsimp only
    split <;> rfl

/-- Entering a state other than STALLED raises nothing and places no notice. -/
theorem enterFeed_link {st : FeedState} (h : st ≠ .stalled) (p : Part) : (enterFeed st p).link = p.link := by
  unfold enterFeed
  split
  · rfl
  · simp

/-- Entering a state other than STALLED keeps the stall-out mark. -/
theorem enterFeed_stallOut {st : FeedState} (h : st ≠ .stalled) (p : Part) :
    (enterFeed st p).feed.stallOut = p.feed.stallOut := by
  unfold enterFeed
  split
  · rfl
  · cases st <;> first | exact absurd rfl h | simp [Feed.enter]

/-- The decision reads the pending direct cut and the request nowhere. -/
@[simp] theorem decision_withdraw (p : Part) : Part.decision { p with feed := p.feed.withdraw } = p.decision := rfl

theorem feedDecide_feedOnly (p : Part) : FeedOnly p (feedDecide p) :=
  (FeedOnly.of_feed p p.feed.withdraw).trans (enterFeed_feedOnly _ _)

/-- Deciding afresh takes the state of the decision table. -/
@[simp] theorem feedDecide_state (p : Part) : (feedDecide p).feed.state = p.decision := by
  simp [feedDecide]

@[simp] theorem feedDecide_value (p : Part) : (feedDecide p).feed.value = p.feed.value := by
  simp [feedDecide, Feed.withdraw]

@[simp] theorem feedDecide_held (p : Part) : (feedDecide p).feed.held = p.feed.held := by
  simp [feedDecide, Feed.withdraw]

@[simp] theorem feedDecide_corrections (p : Part) : (feedDecide p).feed.corrections = p.feed.corrections := by
  simp [feedDecide, Feed.withdraw]

/-- Deciding afresh clears the pending direct cut. -/
@[simp] theorem feedDecide_pendingDirect (p : Part) : (feedDecide p).feed.pendingDirect = false := by
  simp [feedDecide, Feed.withdraw]

@[simp] theorem feedDecide_seekSpent (p : Part) : (feedDecide p).feed.seekSpent = p.feed.seekSpent := by
  simp [feedDecide, Feed.withdraw]

/-- Deciding into a state other than STALLED raises nothing and places no notice. -/
theorem feedDecide_link {p : Part} (h : p.decision ≠ .stalled) : (feedDecide p).link = p.link := by
  simp only [feedDecide]
  rw [enterFeed_link (by simpa using h)]

/-- Deciding into a state other than STALLED keeps the stall-out mark. -/
theorem feedDecide_stallOut {p : Part} (h : p.decision ≠ .stalled) : (feedDecide p).feed.stallOut = p.feed.stallOut := by
  simp only [feedDecide]
  rw [enterFeed_stallOut (by simpa using h)]
  simp [Feed.withdraw]

/-! ### The other operations -/

theorem feedSetValue_feedOnly (v : FeedValue) (p : Part) : FeedOnly p (feedSetValue v p) := by
  cases v
  · simp only [feedSetValue]
    split
    · exact .of_feed p _
    · exact (FeedOnly.of_feed p _).trans (feedDecide_feedOnly _)
  · simp only [feedSetValue]
    split
    · exact .of_feed p _
    · exact (FeedOnly.of_feed p _).trans (feedDecide_feedOnly _)
  · simp only [feedSetValue]
    split
    · exact (FeedOnly.of_feed p _).trans (feedDecide_feedOnly _)
    · exact (FeedOnly.of_feed p _).trans (feedDecide_feedOnly _)
    · exact (FeedOnly.of_feed p _).trans (feedDecide_feedOnly _)
    · exact .of_feed p _

/-- The control value is the one set. -/
@[simp] theorem feedSetValue_value (v : FeedValue) (p : Part) : (feedSetValue v p).feed.value = v := by
  cases v
  · simp only [feedSetValue]; split <;> simp
  · simp only [feedSetValue]; split <;> simp
  · simp only [feedSetValue]; split <;> simp

theorem feedEnd_feedOnly (p : Part) : FeedOnly p (feedEnd p) :=
  (FeedOnly.of_feed p _).trans (enterFeed_feedOnly _ _)

theorem feedAttach_feedOnly (p : Part) : FeedOnly p (feedAttach p) :=
  (FeedOnly.of_feed p _).trans (feedDecide_feedOnly _)

theorem feedTakeover_feedOnly (p : Part) : FeedOnly p (feedTakeover p) := by
  unfold feedTakeover
  split
  · exact (FeedOnly.of_feed p _).trans (enterFeed_feedOnly _ _)
  · exact .of_feed p _

theorem feedReferenced_feedOnly (p : Part) : FeedOnly p (feedReferenced p) := by
  simp only [feedReferenced]
  split
  · exact (FeedOnly.of_feed p _).trans (feedDecide_feedOnly _)
  · exact (FeedOnly.of_feed p _).trans (feedDecide_feedOnly _)
  · exact .of_feed p _

theorem feedProfile_feedOnly (v : FeedValue) (p : Part) : FeedOnly p (feedProfile v p) :=
  (FeedOnly.of_feed p _).trans (feedDecide_feedOnly _)

theorem feedSawLeft_feedOnly (p : Part) : FeedOnly p (feedSawLeft p) := by
  unfold feedSawLeft
  split <;> first | exact feedDecide_feedOnly p | exact .rfl p | (split; exact .rfl p; exact feedDecide_feedOnly p)

theorem feedSawParked_feedOnly (p : Part) : FeedOnly p (feedSawParked p) := by
  unfold feedSawParked
  split
  · exact feedDecide_feedOnly p
  · exact .rfl p

theorem feedCutOver_feedOnly (p : Part) : FeedOnly p (feedCutOver p) := by
  unfold feedCutOver
  split
  · exact (FeedOnly.of_feed p _).trans (feedDecide_feedOnly _)
  · exact .rfl p

theorem seekEnds_feedOnly (p : Part) : FeedOnly p (seekEnds p) :=
  ((FeedOnly.of_feed p _).trans (feedDecide_feedOnly _)).trans (.of_raise _ _)

theorem stallFound_feedOnly (p : Part) : FeedOnly p (stallFound p) := by
  simp only [stallFound]
  split
  · exact (FeedOnly.of_feed p _).trans (enterFeed_feedOnly _ _)
  · exact ((FeedOnly.of_feed p _).trans (enterFeed_feedOnly _ _)).trans (.of_feed _ _)

theorem recoveryCheck_feedOnly (p : Part) : FeedOnly p (recoveryCheck p) := by
  unfold recoveryCheck
  split
  · exact enterFeed_feedOnly _ _
  · exact .rfl p

theorem recoverForward_feedOnly (p : Part) : FeedOnly p (recoverForward p) :=
  (enterFeed_feedOnly _ _).trans (recoveryCheck_feedOnly _)

theorem correctionStalls_feedOnly (p : Part) : FeedOnly p (correctionStalls p) :=
  (enterFeed_feedOnly _ _).trans (.of_feed _ _)

theorem stallOutcome_feedOnly (p : Part) : FeedOnly p (stallOutcome p) := by
  unfold stallOutcome
  split
  all_goals first
    | exact stallFound_feedOnly p
    | exact recoverForward_feedOnly p
    | exact correctionStalls_feedOnly p
    | exact seekEnds_feedOnly p
    | exact .rfl p

theorem stallProgress_feedOnly (p : Part) : FeedOnly p (stallProgress p) := by
  simp only [stallProgress]
  split
  · split <;> split <;> exact .of_feed p _
  · exact .rfl p

/-- A count that does not move the log position is compared with no target (R100). -/
@[simp] theorem targetCompare_unmoved (p : Part) : targetCompare p.length.logPos p = p := by
  unfold targetCompare
  split <;> simp

theorem targetCompare_feedOnly (before : Option Int) (p : Part) : FeedOnly p (targetCompare before p) := by
  unfold targetCompare
  repeat' split
  all_goals first
    | exact enterFeed_feedOnly _ _
    | exact .rfl p

theorem feedCompare_feedOnly (before : Option Int) (p : Part) : FeedOnly p (feedCompare before p) := by
  simp only [feedCompare]
  repeat' split
  all_goals first
    | exact targetCompare_feedOnly before p
    | exact enterFeed_feedOnly _ _
    | exact seekEnds_feedOnly p
    | exact recoverForward_feedOnly p
    | exact recoveryCheck_feedOnly p
    | exact .rfl p

theorem feedTravel_feedOnly (before : Option Int) (p : Part) : FeedOnly p (feedTravel before p) :=
  (stallProgress_feedOnly p).trans (feedCompare_feedOnly before _)

theorem feedHold_feedOnly (p : Part) : FeedOnly p (feedHold p) := by
  unfold feedHold
  split
  all_goals first
    | exact feedDecide_feedOnly p
    | exact .rfl p

/-- A feed that works toward its target, or recovers, decides afresh at a hold. -/
theorem feedHold_working {p : Part} (h : p.feed.state = .feed ∨ p.feed.state = .approach ∨ ∃ ph, p.feed.state = .recover ph) :
    feedHold p = feedDecide p := by
  rcases h with h | h | ⟨ph, h⟩ <;> simp [feedHold, h]

/-- A feed that has stopped for its target only records a hold (05 R120). -/
theorem feedHold_stopped {p : Part} (h : p.feed.state = .settle ∨ p.feed.state = .cutWait ∨ ∃ d, p.feed.state = .correct d) :
    feedHold p = p := by
  rcases h with h | h | ⟨d, h⟩ <;> simp [feedHold, h]

theorem feedReact_feedOnly (armed : Bool) (p : Part) : FeedOnly p (feedReact armed p) := by
  unfold feedReact
  repeat' split
  all_goals first
    | exact enterFeed_feedOnly _ _
    | exact feedDecide_feedOnly p
    | exact recoveryCheck_feedOnly p
    | exact .rfl p

end Sys2Proof.Machine
end

