-- ==== Sys2Proof/Laws/Conclude.lean ====
section
/-! SUPPORT. What the end of an event can do: each stage's fields, what a settled part is, and what follows an event that
touches nothing the stages read. -/

namespace Sys2Proof.Machine

/-! ### The stages -/

theorem holdTest_idle {p : Part} (h : p.holdPasses = false) : holdTest p = p := by simp [holdTest, h]

/-- A hold comes into force in the diameter unit; beside it only the feed moves. -/
theorem holdComes_feedOnly (p : Part) : FeedOnly { p with diameter := { p.diameter with hold := true } } (holdComes p) :=
  (FeedOnly.of_raise .diamReject _).trans (feedHold_feedOnly _)

/-- The hold test passes with the feed in FEED or APPROACH, a thin stem and no hold in force (04 R92). -/
theorem holdPasses_iff (p : Part) :
    p.holdPasses = true ↔ p.thin = true ∧ (p.feed.state = .feed ∨ p.feed.state = .approach) ∧ p.diameter.hold = false := by
  unfold Part.holdPasses Part.thin
  rcases p.diameter.entry with _ | _ | m <;> rcases p.currentDiameter with _ | d <;> simp [and_assoc]

/-- A hold that comes into force stays in the diameter unit; the feed takes it. -/
theorem holdTest_feedOnly (p : Part) :
    FeedOnly { p with diameter := { p.diameter with hold := p.diameter.hold || p.holdPasses } } (holdTest p) := by
  unfold holdTest
  rcases h : p.holdPasses
  · simp [FeedOnly]
  · simp only [if_true, Bool.or_true]
    exact holdComes_feedOnly p

/-- Where the hold test passes the feed decides afresh (05 R120). -/
theorem holdTest_state {p : Part} (h : p.holdPasses = true) :
    (holdTest p).feed.state = Part.decision { p with diameter := { p.diameter with hold := true } } := by
  have k := ((holdPasses_iff p).mp h).2.1
  rw [holdTest, if_pos h, holdComes, feedHold_working (by rcases k with k | k <;> simp [raise, k]), feedDecide_state]
  rfl

/-- The hold after the hold test. -/
theorem holdTest_hold (p : Part) : (holdTest p).diameter.hold = (p.diameter.hold || p.holdPasses) := by
  rw [(holdTest_feedOnly p).diameter]

/-- While a hold is in force the hold test does nothing more. -/
theorem holdPasses_of_hold {p : Part} (h : p.diameter.hold = true) : p.holdPasses = false := by
  unfold Part.holdPasses
  split <;> simp [h]

/-- The power stays as it was. -/
theorem becomeReady_boot (p : Part) : becomeReady p =
    { p with boot := if !p.boot.ready && p.linesReady then { p.boot with ready := true, elapsed := none } else p.boot } := by
  unfold becomeReady
  split <;> rfl

theorem valveSync_link (b p : Part) : valveSync b p =
    { p with link := { p.link with
      valve := if p.sendsValve = true ∧ (p.link.image ≠ b.link.image ∨ b.sendsValve = false)
        then some { id := p.valveId, data := valveData p.link.image } else p.link.valve
      refresh := if p.sendsValve then
          if p.link.image ≠ b.link.image ∨ b.sendsValve = false then some 0 else p.link.refresh
        else none } } := by
  unfold valveSync buildFrame
  rcases p.sendsValve with _ | _
  · simp
  · by_cases h : p.link.image ≠ b.link.image ∨ b.sendsValve = false
    · simp [h]
    · simp [h]

/-- What the end of an event does, with no reset that bus-off releases. -/
theorem resetInBusOff_idle {p : Part} (h : p.boot.resetPending = none ∨ p.link.busOff = false) : resetInBusOff p = p := by
  unfold resetInBusOff
  rcases h with h | h
  · simp [h]
  · split <;> simp [h]

/-- What is left of an event's end once the hold test is made: plain data over the fields it reads. -/
def concludeRest (b p : Part) : Part :=
  concludeList (valveSync b (placeDemands (knifeSync (becomeReady (slipSync (dropWatch p))))))

theorem conclude_eq (b p : Part) : conclude b p = concludeRest b (holdTest (resetInBusOff p)) := rfl

/-- The knife controller as its rules have it. -/
def Part.nextKnife (p : Part) : Knife :=
  { p.knife with state := p.knifeState, pressure := p.knifePressure p.knifeState }

/-- The demand image that the present states ask for. -/
def Part.nextImage (p : Part) : Image :=
  { feed := p.feedDemand, knife := Part.knifeDemand { p with knife := p.nextKnife }, saw := p.saw.demand }

/-- Whether the end of an event builds a valve command frame. -/
def Part.buildsFrame (b p : Part) : Prop := p.sendsValve = true ∧ (p.nextImage ≠ b.link.image ∨ b.sendsValve = false)

theorem concludeRest_eq (b p : Part) : concludeRest b p = { p with
    boot := if !p.boot.ready && p.linesReady then { p.boot with ready := true, elapsed := none } else p.boot
    length := { p.length with
      slip := if p.slipRuns then some (p.length.slip.getD { wheel := 0, roller := 0 }) else none }
    diameter := { p.diameter with
      dropTimer := if p.stemGone then some (p.diameter.dropTimer.getD 0) else none }
    knife := p.nextKnife
    link := { p.link with
      sendList := if p.link.busOff then [] else p.link.sendList.take 16
      image := p.nextImage
      valve := if p.sendsValve = true ∧ (p.nextImage ≠ b.link.image ∨ b.sendsValve = false)
        then some { id := p.valveId, data := valveData p.nextImage } else p.link.valve
      refresh := if p.sendsValve then
          if p.nextImage ≠ b.link.image ∨ b.sendsValve = false then some 0 else p.link.refresh
        else none } } := by
  unfold concludeRest
  rw [valveSync_link, becomeReady_boot]
  rfl

/-- The link after the rest of an event's end. -/
theorem concludeRest_follows (b p : Part) : Follows p (concludeRest b p) := by
  rw [concludeRest_eq]
  rfl

/-- With no reset released by bus-off, the end of an event changes only what `Follows` names. -/
theorem conclude_follows (b : Part) {p : Part} (h : p.boot.resetPending = none ∨ p.link.busOff = false) :
    Follows p (conclude b p) := by
  rw [conclude_eq, resetInBusOff_idle h]
  have k := concludeRest_follows b (holdTest p)
  have f := holdTest_feedOnly p
  unfold FeedOnly at f
  unfold Follows at *
  rw [k, f]

/-! ### Settled parts -/

theorem resetEffect_pending (k : ResetKind) (p : Part) : (resetEffect k p).boot.resetPending = none := rfl

/-- The reset that the end of an event keeps is the one arranged before, or none. -/
theorem conclude_pending (b p : Part) :
    (conclude b p).boot.resetPending = if p.link.busOff then none else p.boot.resetPending := by
  rw [conclude_eq, concludeRest_eq]
  have hb : (holdTest (resetInBusOff p)).boot = (resetInBusOff p).boot := (holdTest_feedOnly _).boot
  have key : (resetInBusOff p).boot.resetPending = if p.link.busOff then none else p.boot.resetPending := by
    unfold resetInBusOff
    split
    · rcases p.link.busOff <;> simp_all [resetEffect_pending]
    · simp_all
  rw [← key, ← hb]
  dsimp only
  split <;> rfl

/-- A settled, powered part: no stage of an event's end has anything left to do. -/
structure Quiet (p : Part) : Prop where
  pending : p.boot.resetPending = none ∨ p.link.busOff = false
  holds : p.holdPasses = false
  drop : p.diameter.dropTimer = if p.stemGone then some (p.diameter.dropTimer.getD 0) else none
  slip : p.length.slip = if p.slipRuns then some (p.length.slip.getD { wheel := 0, roller := 0 }) else none
  ready : (!p.boot.ready && p.linesReady) = false
  knife : p.knife = p.nextKnife
  image : p.link.image = p.nextImage
  refresh : p.sendsValve = false → p.link.refresh = none
  list : p.link.sendList = if p.link.busOff then [] else p.link.sendList.take 16

/-- The stages leave a quiet part as it is. -/
theorem Quiet.concludeRest {p : Part} (h : Quiet p) (b : Part) (hb : b.link.image = p.link.image)
    (hs : b.sendsValve = p.sendsValve) : concludeRest b p = p := by
  rw [concludeRest_eq, ← h.drop, ← h.slip, h.ready, ← h.knife, ← h.image, ← h.list, hb, hs]
  rcases k : p.sendsValve
  · simp [← h.refresh k]
  · simp

/-- An event that leaves a quiet part but for its send list is over once the list's limit is applied. -/
theorem Quiet.conclude_list {p : Part} (h : Quiet p) (b : Part) (hb : b.link.image = p.link.image)
    (hs : b.sendsValve = p.sendsValve) (l : List SendItem) :
    conclude b { p with link := { p.link with sendList := l } } =
      { p with link := { p.link with sendList := if p.link.busOff then [] else l.take 16 } } := by
  have hr : resetInBusOff { p with link := { p.link with sendList := l } } = { p with link := { p.link with sendList := l } } :=
    resetInBusOff_idle h.pending
  have hh : holdTest { p with link := { p.link with sendList := l } } = { p with link := { p.link with sendList := l } } :=
    holdTest_idle h.holds
  rw [conclude_eq, hr, hh]
  have e := h.concludeRest b hb hs
  rw [concludeRest_eq] at e ⊢
  have e1 := congrArg (fun x : Part => ({ x with link := { x.link with
    sendList := if p.link.busOff then [] else l.take 16 } } : Part)) e
  exact e1

/-- An event that leaves a quiet part is over. -/
theorem Quiet.conclude_self {p : Part} (h : Quiet p) (b : Part) (hb : b.link.image = p.link.image)
    (hs : b.sendsValve = p.sendsValve) : conclude b p = p := by
  rw [conclude_eq, resetInBusOff_idle h.pending, holdTest_idle h.holds]
  exact h.concludeRest b hb hs

theorem Quiet.settled {p : Part} (h : Quiet p) : conclude p p = p := by
  rw [conclude_eq, resetInBusOff_idle h.pending, holdTest_idle h.holds]
  exact h.concludeRest p rfl rfl

theorem Settled.quiet {p : Part} (h : Settled p) (on : p.powered = true) : Quiet p := by
  have e := h on
  have hpend : p.boot.resetPending = none ∨ p.link.busOff = false := by
    by_cases hb : p.link.busOff
    · left
      have := congrArg (·.boot.resetPending) e
      simp only [conclude_pending, hb, if_true] at this
      exact this.symm
    · right; simpa using hb
  rw [conclude_eq, resetInBusOff_idle hpend] at e
  have hh : p.holdPasses = false := by
    by_contra hc
    have hc' : p.holdPasses = true := by simpa using hc
    have e1 := congrArg (·.diameter.hold) e
    rw [concludeRest_eq] at e1
    simp only [holdTest_hold, hc', Bool.or_true] at e1
    have := holdPasses_of_hold (p := p) e1.symm
    simp [this] at hc'
  rw [holdTest_idle hh, concludeRest_eq] at e
  have a1 := congrArg (·.diameter.dropTimer) e
  have a2 := congrArg (·.length.slip) e
  have a3 := congrArg (·.boot.ready) e
  have a4 := congrArg (·.knife) e
  have a5 := congrArg (·.link.image) e
  have a6 := congrArg (·.link.refresh) e
  have a7 := congrArg (·.link.sendList) e
  dsimp only at a1 a2 a3 a4 a5 a6 a7
  refine ⟨hpend, hh, a1.symm, a2.symm, ?_, a4.symm, a5.symm, ?_, a7.symm⟩
  · by_contra hc
    have hc' : (!p.boot.ready && p.linesReady) = true := by simpa using hc
    rw [hc'] at a3
    simp at a3
    simp [a3] at hc'
  · intro hs
    rw [hs] at a6
    exact a6.symm

theorem settled_iff_quiet {p : Part} (on : p.powered = true) : Settled p ↔ Quiet p :=
  ⟨fun h => h.quiet on, fun h _ => h.settled⟩

/-- The rest of an event's end leaves a quiet part. -/
theorem concludeRest_quiet (b : Part) {p : Part} (hp : p.boot.resetPending = none ∨ p.link.busOff = false)
    (hh : p.holdPasses = false) : Quiet (concludeRest b p) := by
  rw [concludeRest_eq]
  refine ⟨?_, hh, ?_, ?_, ?_, rfl, rfl, ?_, ?_⟩
  · dsimp only
    split <;> exact hp
  · change (if p.stemGone then some (p.diameter.dropTimer.getD 0) else none) = if p.stemGone then _ else none
    rcases p.stemGone <;> rfl
  · change (if p.slipRuns then some (p.length.slip.getD _) else none) = if p.slipRuns then _ else none
    rcases p.slipRuns <;> rfl
  · change (!(if !p.boot.ready && p.linesReady then { p.boot with ready := true, elapsed := none } else p.boot).ready
      && p.linesReady) = false
    rcases h1 : p.boot.ready <;> rcases h2 : p.linesReady <;> simp [h1]
  · intro h
    have h' : p.sendsValve = false := h
    simp [h']
  · dsimp only
    rcases p.link.busOff <;> simp

/-- After any event the part is settled. -/
theorem conclude_quiet (b p : Part) : Quiet (conclude b p) := by
  rw [conclude_eq]
  have hp : (resetInBusOff p).boot.resetPending = none ∨ (resetInBusOff p).link.busOff = false := by
    unfold resetInBusOff
    split
    · split
      · exact .inl rfl
      · next h => exact .inr (by simpa using h)
    · next h => exact .inl h
  have f := holdTest_feedOnly (resetInBusOff p)
  refine concludeRest_quiet b ?_ ?_
  · rw [f.boot, f.busOff]; exact hp
  · rcases h : (resetInBusOff p).holdPasses
    · rw [holdTest_idle h, h]
    · exact holdPasses_of_hold (by rw [holdTest_hold, h, Bool.or_true])

theorem conclude_settled (b p : Part) : Settled (conclude b p) := fun _ => (conclude_quiet b p).settled

end Sys2Proof.Machine
end

