-- ==== Sys2Proof/Laws/Table.lean ====
section
/-! SUPPORT. The stem table's small lemmas: reading a slot after a write, the active slot, arming. -/

namespace Sys2Proof.Machine

/-! ### Slots -/

/-- The slot written reads back; the others read as before. -/
theorem recordAt_setRecord (p : Part) (i j : Fin 8) (r : Option Record) :
    (p.setRecord i r).recordAt j = if i = j then r else p.recordAt j := by
  simp only [Part.recordAt, Part.setRecord]
  by_cases h : i = j
  · subst h; simp
  · have hv : i.val ≠ j.val := fun e => h (Fin.ext e)
    simp [h, hv]

@[simp] theorem recordAt_setRecord_self (p : Part) (i : Fin 8) (r : Option Record) : (p.setRecord i r).recordAt i = r := by
  simp [recordAt_setRecord]

theorem recordAt_setRecord_ne (p : Part) {i j : Fin 8} (h : i ≠ j) (r : Option Record) :
    (p.setRecord i r).recordAt j = p.recordAt j := by simp [recordAt_setRecord, h]

/-- A record changes no generation (01 R2). -/
@[simp] theorem stemId_setRecord (p : Part) (i j : Fin 8) (r : Option Record) : (p.setRecord i r).stemId j = p.stemId j := by
  simp only [Part.stemId, Part.setRecord]
  by_cases h : i = j
  · subst h; simp
  · have hv : i.val ≠ j.val := fun e => h (Fin.ext e)
    simp [hv]

/-- Writing the record of a slot leaves the other slots as they were. -/
theorem setRecord_others (p : Part) (i : Fin 8) (r : Option Record) : OtherSlotsKept p (p.setRecord i r) i := by
  intro j h
  have hv : i.val ≠ j.val := fun e => h (Fin.ext e.symm)
  simp [Part.setRecord, hv]

theorem OtherSlotsKept.rfl (p : Part) (i : Fin 8) : OtherSlotsKept p p i := fun _ _ => Eq.refl _

theorem OtherSlotsKept.trans {p q r : Part} {i : Fin 8} (h : OtherSlotsKept p q i) (k : OtherSlotsKept q r i) :
    OtherSlotsKept p r i := fun j hj => (k j hj).trans (h j hj)

theorem OtherSlotsKept.of_table {p q : Part} (i : Fin 8) (h : q.table = p.table) : OtherSlotsKept p q i :=
  fun _ _ => by rw [h]

/-! ### The active slot -/

/-- The slot found is ACTIVE. -/
theorem activeSlot_isActive {p : Part} {i : Fin 8} (h : p.activeSlot = some i) : p.isActive i = true :=
  List.find?_some h

/-- The active record is the record of the active slot. -/
theorem activeRecord_of_slot {p : Part} {i : Fin 8} (h : p.activeSlot = some i) : p.activeRecord = p.recordAt i := by
  simp [Part.activeRecord, h]

theorem mem_slotList (i : Fin 8) : i ∈ slotList := by
  revert i
  decide

/-- With no slot found, none is ACTIVE. -/
theorem isActive_of_none {p : Part} (h : p.activeSlot = none) (i : Fin 8) : p.isActive i = false := by
  have := List.find?_eq_none.mp h i (mem_slotList i)
  simpa using this

/-- Where at most one record is ACTIVE, an ACTIVE slot is the one found. -/
theorem activeSlot_of_isActive {p : Part} (o : OneActive p) {i : Fin 8} (h : p.isActive i = true) : p.activeSlot = some i := by
  rcases e : p.activeSlot with _ | j
  · rw [isActive_of_none e i] at h; simp at h
  · rw [o i j h (activeSlot_isActive e)]

/-- A slot that a stem ID names holds a record, and the ID is its own (01 R3). -/
theorem lookup_spec {p : Part} {id : StemId} {i : Fin 8} (h : p.lookup id = some i) :
    id.slot = i.val ∧ id.generation = p.table.slots[i].generation ∧ (p.recordAt i).isSome = true := by
  unfold Part.lookup at h
  split at h
  · dsimp only at h
    split at h
    · next hb =>
      cases h
      simp only [Bool.and_eq_true, beq_iff_eq] at hb
      exact ⟨Eq.refl _, hb.2.symm, hb.1⟩
    · simp at h
  · simp at h

/-! ### Arming -/

/-- The arming test does nothing where its conditions fail (02 R37). -/
theorem armingTest_idle (p : Part) {r : Record} (h : r.mayArm = false) : p.armingTest r = (r, .nothing) := by
  simp [Part.armingTest, h]

theorem setRecord_self {p : Part} {i : Fin 8} {r : Record} (h : p.recordAt i = some r) : p.setRecord i (some r) = p := by
  unfold Part.recordAt at h
  unfold Part.setRecord
  have : p.table.slots.set i.val { p.table.slots[i] with record := some r } i.isLt = p.table.slots := by
    rw [← h]
    exact Vector.set_getElem_self ..
  rw [this]

/-- An arming occasion does nothing where the conditions of R37 fail. -/
theorem arm_idle {p : Part} {i : Fin 8} {r : Record} (h : p.recordAt i = some r) (k : r.mayArm = false) : arm i p = p := by
  simp [arm, h, armingTest_idle p k, armingHands, setRecord_self h]

/-- The entry that becomes ARMED, and where it came from. -/
theorem armFirst_spec : ∀ {es : List Entry} {e : Entry} {es' : List Entry}, armFirst es = some (e, es') →
    e.state = .armed ∧ es'.length = es.length ∧ e ∈ es' := by
  intro es
  induction es with
  | nil => intro e es' h; simp [armFirst] at h
  | cons x xs ih =>
    intro e es' h
    unfold armFirst at h
    split at h
    · simp only [Option.some.injEq, Prod.mk.injEq] at h
      obtain ⟨rfl, rfl⟩ := h
      simp
    · simp only [Option.map_eq_some_iff, Prod.mk.injEq] at h
      obtain ⟨⟨y, ys⟩, hy, rfl, rfl⟩ := h
      obtain ⟨h1, h2, h3⟩ := ih hy
      exact ⟨h1, by simp [h2], by simp [h3]⟩

/-- A change of one entry keeps the length of the list. -/
theorem changeFirst_length {ident : Nat} {st : EntryState} {f : Entry → Entry} :
    ∀ {es es' : List Entry}, changeFirst ident st f es = some es' → es'.length = es.length := by
  intro es
  induction es with
  | nil => intro es' h; simp [changeFirst] at h
  | cons x xs ih =>
    intro es' h
    unfold changeFirst at h
    split at h
    · simp only [Option.some.injEq] at h
      subst h
      simp
    · simp only [Option.map_eq_some_iff] at h
      obtain ⟨ys, hy, rfl⟩ := h
      simp [ih hy]

end Sys2Proof.Machine
end

