-- ==== Sys2Proof/Laws/Head.lean ====
section
/-! SUPPORT. What the operations of the head's work can do: each of them is `HeadWork`, a count `CountWork`. -/

namespace Sys2Proof.Machine

/-! ### `HeadWork` -/

theorem HeadWork.rfl (p : Part) : HeadWork p p := by simp [HeadWork]

theorem HeadWork.trans {p q r : Part} (h : HeadWork p q) (k : HeadWork q r) : HeadWork p r := by
  unfold HeadWork at *
  rw [h] at k
  exact k

theorem FeedOnly.headWork {p q : Part} (h : FeedOnly p q) : HeadWork p q := by
  unfold FeedOnly at h
  unfold HeadWork
  rw [h]

theorem Follows.headWork {p q : Part} (h : Follows p q) : HeadWork p q := by
  unfold Follows at h
  unfold HeadWork
  rw [h]

theorem HeadWork.of_raise (c : Condition) (p : Part) : HeadWork p (raise c p) := (FeedOnly.of_raise c p).headWork

theorem HeadWork.of_place (n : Notice) (p : Part) : HeadWork p (place n p) := by simp [HeadWork, place]

theorem HeadWork.of_setRecord (i : Fin 8) (r : Option Record) (p : Part) : HeadWork p (p.setRecord i r) := by
  simp [HeadWork, Part.setRecord]

theorem HeadWork.of_length (p : Part) (l : LengthUnit) : HeadWork p { p with length := l } := by simp [HeadWork]

theorem HeadWork.of_diameter (p : Part) (d : DiameterUnit) : HeadWork p { p with diameter := d } := by simp [HeadWork]

theorem HeadWork.of_measuring (p : Part) (l : LengthUnit) (d : DiameterUnit) :
    HeadWork p { p with length := l, diameter := d } := by simp [HeadWork]

theorem HeadWork.of_saw (p : Part) (w : Saw) : HeadWork p { p with saw := w } := by simp [HeadWork]

theorem HeadWork.of_table (p : Part) (t : Table) : HeadWork p { p with table := t } := by simp [HeadWork]

theorem HeadWork.powered {p q : Part} (h : HeadWork p q) : q.powered = p.powered := by rw [h]
theorem HeadWork.draws {p q : Part} (h : HeadWork p q) : q.draws = p.draws := by rw [h]
theorem HeadWork.pins {p q : Part} (h : HeadWork p q) : q.pins = p.pins := by rw [h]
theorem HeadWork.store {p q : Part} (h : HeadWork p q) : q.store = p.store := by rw [h]
theorem HeadWork.profile {p q : Part} (h : HeadWork p q) : q.monitor.profile = p.monitor.profile := by rw [h]
theorem HeadWork.stick {p q : Part} (h : HeadWork p q) : q.monitor.stick = p.monitor.stick := by rw [h]
theorem HeadWork.takeover {p q : Part} (h : HeadWork p q) : q.monitor.takeover = p.monitor.takeover := by rw [h]
theorem HeadWork.node {p q : Part} (h : HeadWork p q) : q.link.node = p.link.node := by rw [h]
theorem HeadWork.requests {p q : Part} (h : HeadWork p q) : q.link.requests = p.link.requests := by rw [h]
theorem HeadWork.mask {p q : Part} (h : HeadWork p q) : q.link.mask = p.link.mask := by rw [h]
theorem HeadWork.errors {p q : Part} (h : HeadWork p q) : q.link.errors = p.link.errors := by rw [h]
theorem HeadWork.busOff {p q : Part} (h : HeadWork p q) : q.link.busOff = p.link.busOff := by rw [h]

/-! ### Handing on and arming -/

/-- The guidance's test places at most a notice and sets its mark. -/
theorem guidanceTest_headWork (p : Part) : HeadWork p (guidanceTest p) := by
  unfold guidanceTest
  split
  · split
    · simp [HeadWork, place]
    · exact .rfl p
  · exact .rfl p

theorem handOver_headWork (e : Option Entry) (fresh : Bool) (p : Part) : HeadWork p (handOver e fresh p) := by
  have h : HeadWork p (feedReact e.isSome { p with
      diameter := p.diameter.take p.length.logPos e
      feed := p.feed.take e fresh
      monitor := { p.monitor with guidance := p.monitor.guidance.take e } }) :=
    HeadWork.trans (by simp [HeadWork]) (feedReact_feedOnly _ _).headWork
  unfold handOver
  dsimp only
  split
  · exact h.trans (guidanceTest_headWork _)
  · exact h

theorem armingHands_headWork (a : Arming) (p : Part) : HeadWork p (armingHands a p) := by
  cases a with
  | nothing => exact .rfl p
  | armed e => exact handOver_headWork (some e) true p
  | filler e => exact (HeadWork.of_raise .filler p).trans (handOver_headWork (some e) true _)
  | empty => exact (HeadWork.of_raise .planEmpty p).trans (handOver_headWork none false _)

theorem arm_headWork (i : Fin 8) (p : Part) : HeadWork p (arm i p) := by
  unfold arm
  split
  · exact .rfl p
  · exact (HeadWork.of_setRecord _ _ _).trans (armingHands_headWork _ _)

/-! ### The end of a period, reference and top -/

theorem endPeriod_headWork (p : Part) : HeadWork p (endPeriod p) :=
  HeadWork.trans (by simp [HeadWork]) (feedEnd_feedOnly _).headWork

theorem finishTop_headWork (i : Fin 8) (r : Record) (x : Int) (p : Part) : HeadWork p (finishTop i r x p) :=
  ((HeadWork.of_setRecord _ _ _).trans (.of_place _ _)).trans (endPeriod_headWork _)

theorem rescale_headWork {p q : Part} (b : Part) (h : HeadWork p q) : HeadWork p (rescale b q) :=
  h.trans (by simp [HeadWork, rescale])

theorem dropReport_headWork (p : Part) : HeadWork p (dropReport p) := by
  unfold dropReport
  split
  · exact ((rescale_headWork _ ((HeadWork.of_setRecord _ _ _).trans (endPeriod_headWork _))).trans
      (.of_raise _ _)).trans (.of_place _ _)
  · exact .rfl p

theorem established_headWork (i : Fin 8) (p : Part) : HeadWork p (established i p) :=
  (feedReferenced_feedOnly p).headWork.trans (arm_headWork i _)

theorem referenceReport_headWork (p : Part) : HeadWork p (referenceReport p) := by
  unfold referenceReport
  split
  · split
    · exact (HeadWork.of_setRecord _ _ _).trans (established_headWork _ _)
    · exact .rfl p
  · exact .rfl p

theorem topReport_headWork (x : Int) (p : Part) : HeadWork p (topReport x p) := by
  unfold topReport
  split
  · split
    · exact .rfl p
    · split
      · exact .of_setRecord _ _ _
      · exact finishTop_headWork _ _ _ _
  · exact .rfl p

/-! ### Cuts -/

theorem cutStart_headWork (kind : CutKind) (p : Part) : HeadWork p (cutStart kind p) := by
  unfold cutStart
  split
  · dsimp only
    split
    · simp [HeadWork]
    · split
      · exact HeadWork.trans (by simp [HeadWork, Part.setRecord]) (handOver_headWork _ _ _)
      · simp [HeadWork]
  · simp [HeadWork]

theorem afterLog_headWork (i : Fin 8) (r : Record) (x : Int) (p : Part) : HeadWork p (afterLog i r x p) := by
  unfold afterLog
  split
  · exact finishTop_headWork _ _ _ _
  · exact arm_headWork _ _

theorem rebase_headWork (active : Bool) (p : Part) : HeadWork p (rebase active p) := by
  unfold rebase
  split
  · split
    · simp [HeadWork]
    · exact .rfl p
  · simp [HeadWork]

/-- The completion's record, notice and unbinding, before what follows in an ACTIVE record. -/
theorem HeadWork.of_completed (active : Bool) (i : Fin 8) (r : Option Record) (n : Notice) (p : Part) :
    HeadWork p
      { place n ((rebase active p).setRecord i r) with
        table := { (place n ((rebase active p).setRecord i r)).table with bound := none } } :=
  (((rebase_headWork active p).trans (.of_setRecord i r _)).trans (.of_place n _)).trans (.of_table _ _)

theorem cutComplete_headWork (p : Part) : HeadWork p (cutComplete p) := by
  unfold cutComplete
  split
  · exact .rfl p
  · split
    · exact .of_table _ _
    · dsimp only
      split
      · split
        · exact (HeadWork.of_completed _ _ _ _ p).trans (established_headWork _ _)
        · exact .of_completed _ _ _ _ p
      · split
        · exact (HeadWork.of_completed _ _ _ _ p).trans (afterLog_headWork _ _ _ _)
        · exact .of_completed _ _ _ _ p

theorem cutAbort_headWork (p : Part) : HeadWork p (cutAbort p) := by
  unfold cutAbort
  dsimp only
  have h : HeadWork p { p with
      length := { p.length with carry := none }
      table := { p.table with bound := none } } := by simp [HeadWork]
  split
  · split
    · exact h
    · split
      · exact h
      · split
        · exact (h.trans (.of_setRecord _ _ _)).trans (handOver_headWork _ _ _)
        · exact h.trans (.of_setRecord _ _ _)
  · exact h

/-! ### Samples, travel, slip -/

theorem takeSample_headWork (p : Part) : HeadWork p (takeSample p) := by
  unfold takeSample
  split
  · exact .of_diameter _ _
  · exact .rfl p

theorem sampleDue_headWork (p : Part) : HeadWork p (sampleDue p) := by
  unfold sampleDue
  split
  · split
    · exact (takeSample_headWork p).trans (.of_diameter _ _)
    · exact .rfl p
  · exact .rfl p

theorem midCross_headWork (b : Option Int) (p : Part) : HeadWork p (midCross b p) := by
  unfold midCross
  split
  · split
    · exact .of_diameter _ _
    · exact .rfl p
  · exact .rfl p

theorem creepCheck_headWork (p : Part) : HeadWork p (creepCheck p) := by
  unfold creepCheck
  split
  · split
    · exact (HeadWork.of_length _ _).trans (.of_raise _ _)
    · exact .rfl p
  · exact .rfl p

theorem referenceStem_headWork (p : Part) : HeadWork p (referenceStem p) := by
  unfold referenceStem
  split
  · split
    · exact (HeadWork.of_measuring p _ _).trans (referenceReport_headWork _)
    · exact .rfl p
  · exact .rfl p

theorem reportTop_headWork (p : Part) : HeadWork p (reportTop p) := by
  unfold reportTop
  split
  · split
    · exact topReport_headWork _ _
    · exact .rfl p
  · exact .rfl p

theorem endQualify_headWork (p : Part) : HeadWork p (endQualify p) := by
  unfold endQualify
  split
  · exact .rfl p
  · dsimp only
    split
    · split
      · exact .of_length _ _
      · split
        · exact (HeadWork.of_length _ _).trans (reportTop_headWork _)
        · exact (HeadWork.of_length _ _).trans (referenceStem_headWork _)
    · exact .rfl p

/-! ### `CountWork`: the head's work with free values drawn -/

theorem HeadWork.countWork {p q : Part} (h : HeadWork p q) : CountWork p q := by
  unfold HeadWork at h
  unfold CountWork HeadWork
  rw [h]

theorem CountWork.trans {p q r : Part} (h : CountWork p q) (k : CountWork q r) : CountWork p r := by
  unfold CountWork HeadWork at *
  rw [h] at k
  exact k

/-- A hold that comes into force is the head's work. -/
theorem holdComes_headWork (p : Part) : HeadWork p (holdComes p) :=
  (HeadWork.of_diameter p _).trans (holdComes_feedOnly p).headWork

theorem CountWork.of_draw (p : Part) : CountWork p { p with draws := p.draws + 1 } := by simp [CountWork, HeadWork]

theorem holdMeetsStop_countWork (before : Option Int) (p : Part) : CountWork p (holdMeetsStop before p) := by
  have t : ∀ q, HeadWork q (feedTravel before q) := fun q => (feedTravel_feedOnly before q).headWork
  unfold holdMeetsStop
  refine (CountWork.of_draw p).trans ?_
  dsimp only
  split
  · split
    · exact ((holdComes_headWork _).trans (t _)).countWork
    · exact ((t _).trans (holdComes_headWork _)).countWork
  · exact (t _).countWork

/-- The feed's part of a count: its own travel, or one of the three outcomes of a failing sample that meets SETTLE. -/
theorem feedTravelSampled_eq (before : Option Int) (p : Part) :
    feedTravelSampled before p = feedTravel before p
      ∨ (p.holdPasses = true ∧ (feedTravel before p).feed.state = .settle
          ∧ (feedTravelSampled before p = feedTravel before { p with draws := p.draws + 1 }
            ∨ feedTravelSampled before p = holdComes (feedTravel before { p with draws := p.draws + 1 })
            ∨ feedTravelSampled before p = feedTravel before (holdComes { p with draws := p.draws + 1 }))) := by
  unfold feedTravelSampled holdMeetsStop
  split
  · next h =>
    refine .inr ⟨h.1, h.2, ?_⟩
    dsimp only
    split
    · split
      · exact .inr (.inr rfl)
      · exact .inr (.inl rfl)
    · exact .inl rfl
  · exact .inl rfl

theorem feedTravelSampled_countWork (before : Option Int) (p : Part) : CountWork p (feedTravelSampled before p) := by
  unfold feedTravelSampled
  split
  · exact holdMeetsStop_countWork before p
  · exact (feedTravel_feedOnly before p).headWork.countWork

theorem selectedTravel_countWork (d : Int) (p : Part) : CountWork p (selectedTravel d p) := by
  have h : HeadWork p (moveSums d p) := by simp [HeadWork, moveSums]
  have k : ∀ q, CountWork q (guidanceTravel p.length.logPos (feedTravelSampled p.length.logPos (endQualify (creepCheck q)))) := fun q =>
    (((creepCheck_headWork q).trans (endQualify_headWork _)).countWork.trans (feedTravelSampled_countWork _ _)).trans (by
      unfold guidanceTravel
      split
      · exact (HeadWork.rfl _).countWork
      · exact (guidanceTest_headWork _).countWork)
  unfold selectedTravel
  dsimp only
  refine (h.trans (sampleDue_headWork _)).countWork.trans (CountWork.trans ?_ (k _))
  split
  · exact (midCross_headWork _ _).countWork
  · exact (HeadWork.rfl _).countWork

theorem slipClose_headWork (p : Part) : HeadWork p (slipClose p) := by
  unfold slipClose
  split
  · exact .rfl p
  · split
    · exact .rfl p
    · dsimp only
      split
      · exact ((HeadWork.of_length p _).trans (.of_length _ _)).trans (.of_raise _ _)
      · split
        · exact (HeadWork.of_length p _).trans
            ((rescale_headWork _ (.of_length _ _)).trans (.of_raise _ _))
        · exact .of_length _ _

theorem wheelCounts_countWork (forward : Bool) (p : Part) : CountWork p (wheelCounts forward p) := by
  unfold wheelCounts
  dsimp only
  refine CountWork.trans ?_ (slipClose_headWork _).countWork
  split
  · exact (HeadWork.of_length p _).countWork.trans (selectedTravel_countWork _ _)
  · exact (HeadWork.of_length p _).countWork

theorem seat_headWork (d : Int) (p : Part) : HeadWork p (seat d p) := by
  unfold seat
  split
  · split
    · exact rescale_headWork _ (.of_length _ _)
    · exact .of_length _ _
  · exact .rfl p
  · exact .rfl p

theorem rollerCounts_countWork (forward : Bool) (p : Part) : CountWork p (rollerCounts forward p) := by
  unfold rollerCounts
  dsimp only
  refine CountWork.trans ?_ (seat_headWork _ _).countWork
  split
  · exact (HeadWork.of_length p _).countWork.trans (selectedTravel_countWork _ _)
  · exact (HeadWork.of_length p _).countWork

/-- One count adds its increment exactly, accumulator and remainder taken together (03 R53). -/
theorem Encoder.count_exact (e : Encoder) (pitch corr : Int) (forward : Bool) :
    (e.count pitch corr forward).acc * 1000000 + (e.count pitch corr forward).rem
      = e.acc * 1000000 + (e.rem + signed forward (pitch * (1000000 + corr))) := by
  simp only [Encoder.count]
  rw [Int.add_mul, Int.add_assoc, Int.mul_comm (Int.tdiv _ _), Int.mul_tdiv_add_tmod]

/-! ### The saw -/

theorem sawParks_headWork (p : Part) : HeadWork p (sawParks p) :=
  (HeadWork.of_saw p _).trans (feedSawParked_feedOnly _).headWork

theorem sawFaults_headWork (p : Part) : HeadWork p (sawFaults p) := .of_saw p _

theorem strokeCompletes_headWork (p : Part) : HeadWork p (strokeCompletes p) := by
  have h := ((HeadWork.of_saw p (p.saw.return_ .completed)).trans (cutComplete_headWork _)).trans
    (feedCutOver_feedOnly _).headWork
  unfold strokeCompletes
  dsimp only
  split
  · exact h.trans (sawParks_headWork _)
  · exact h

theorem sawAdvances_headWork (c : Cycle) (p : Part) : HeadWork p (sawAdvances c p) := by
  have h := (HeadWork.of_saw p { p.saw with
    state := .advancing, cycle := some c, cutTimer := some 0, returnTimer := none }).trans (cutStart_headWork c.kind _)
  unfold sawAdvances
  dsimp only
  split
  · exact h.trans (strokeCompletes_headWork _)
  · exact h

theorem sawTakes_headWork (k : CutKind) (p : Part) : HeadWork p (sawTakes k p) :=
  (FeedOnly.of_feed p _).headWork.trans (sawAdvances_headWork _ _)

theorem offerRequest_headWork (p : Part) : HeadWork p (offerRequest p) := by
  unfold offerRequest
  split
  · split
    · exact sawTakes_headWork _ _
    · exact .rfl p
  · exact .rfl p

theorem returnEnds_headWork (p : Part) : HeadWork p (returnEnds p) := by
  unfold returnEnds
  split
  · exact sawParks_headWork p
  · split
    · split
      · exact sawAdvances_headWork _ _
      · exact sawParks_headWork p
    · exact sawFaults_headWork p
    · exact sawParks_headWork p
    · exact sawParks_headWork p

theorem goCutWait_headWork (p : Part) : HeadWork p (goCutWait p) :=
  ((enterFeed_feedOnly _ p).headWork.trans (FeedOnly.of_feed _ _).headWork).trans (offerRequest_headWork _)

theorem settleCuts_headWork (p : Part) : HeadWork p (settleCuts p) := by
  unfold settleCuts
  split
  · exact (HeadWork.of_raise _ _).trans (goCutWait_headWork _)
  · exact goCutWait_headWork p

theorem correctToward_headWork (h : Heading) (p : Part) : HeadWork p (correctToward h p) :=
  (enterFeed_feedOnly _ p).headWork.trans (FeedOnly.of_feed _ _).headWork

theorem settleEnds_headWork (p : Part) : HeadWork p (settleEnds p) := by
  unfold settleEnds
  repeat' split
  all_goals first
    | exact settleCuts_headWork p
    | exact (feedDecide_feedOnly p).headWork
    | exact goCutWait_headWork p
    | exact correctToward_headWork _ p
    | exact .rfl p
    | (dsimp only
       repeat' split
       all_goals first
         | exact settleCuts_headWork p
         | exact goCutWait_headWork p
         | exact correctToward_headWork _ p)

theorem returnTimesOut_headWork (p : Part) : HeadWork p (returnTimesOut p) := by
  unfold returnTimesOut
  split
  · exact ((HeadWork.of_saw p _).trans (.of_raise _ _)).trans (feedCutOver_feedOnly _).headWork
  · exact .rfl p

theorem firstTimeout_headWork (p : Part) : HeadWork p (firstTimeout p) := by
  have h := (HeadWork.of_saw p (p.saw.return_ .firstTimeout)).trans (cutAbort_headWork _)
  unfold firstTimeout
  dsimp only
  split
  · exact h.trans (returnEnds_headWork _)
  · exact h

theorem secondTimeout_headWork (p : Part) : HeadWork p (secondTimeout p) := by
  have h := (((HeadWork.of_saw p (p.saw.return_ .secondTimeout)).trans (.of_raise .sawTimeout _)).trans
    (cutAbort_headWork _)).trans (feedCutOver_feedOnly _).headWork
  unfold secondTimeout
  dsimp only
  split
  · exact h.trans (sawFaults_headWork _)
  · exact h

theorem cutTimesOut_headWork (p : Part) : HeadWork p (cutTimesOut p) := by
  unfold cutTimesOut
  split
  · split
    · exact secondTimeout_headWork p
    · exact firstTimeout_headWork p
  · exact .rfl p

/-! ### The end of an event -/

/-- With no reset released by bus-off, an event of the head's work and its end change only what `HeadWork` names. -/
theorem HeadWork.concluded {p q : Part} (b : Part) (h : HeadWork p q) (k : q.boot.resetPending = none ∨ q.link.busOff = false) :
    HeadWork p (conclude b q) := h.trans (conclude_follows b k).headWork

end Sys2Proof.Machine
end

