-- ==== Sys2Proof/Laws/Requests.lean ====
section
/-! SUPPORT. Requests: each handler refuses exactly by the table of its rule, a refusal changes nothing, and what taking a
request comes to. -/

namespace Sys2Proof.Machine

/-! ### Handlers by code -/

/-- The handler of a request code. -/
def handlerOf (code : Byte) : List Byte → Part → Reply :=
  if code = 0x01 then doStatus
  else if code = 0x02 then doReadConditions
  else if code = 0x03 then doSetMasks
  else if code = 0x04 then doSetProfile
  else if code = 0x05 then doSetFeed
  else if code = 0x06 then doKnifeOverride
  else if code = 0x07 then doTakeover
  else if code = 0x08 then doCutNow
  else if code = 0x10 then doOpenStem
  else if code = 0x11 then doAttachStem
  else if code = 0x12 then doFinishStem
  else if code = 0x13 then doRetireStem
  else if code = 0x14 then doReadStem
  else if code = 0x15 then doReadEntries
  else if code = 0x18 then doAppendEntry
  else if code = 0x19 then doInsertEntry
  else if code = 0x1A then doChangeEntry
  else if code = 0x1B then doCancelEntry
  else if code = 0x20 then doReadSpecies
  else if code = 0x21 then doWriteSpecies
  else if code = 0x22 then doClearSpecies
  else if code = 0x23 then doCalibrate
  else if code = 0x28 then doReadSetting
  else if code = 0x29 then doWriteSetting
  else if code = 0x2A then doStore
  else doReset

/-- The row of a request's code takes it by its handler. -/
theorem exec_requestRow {code : Byte} (h : code ∈ requestCodes) (s : State) :
    exec (requestRow code) s = s.on (request code (argLength code) (handlerOf code)) := by
  simp only [requestCodes, List.mem_cons, List.not_mem_nil, or_false] at h
  rcases h with rfl | rfl | rfl | rfl | rfl | rfl | rfl | rfl | rfl | rfl | rfl | rfl | rfl | rfl | rfl | rfl | rfl | rfl |
    rfl | rfl | rfl | rfl | rfl | rfl | rfl | rfl <;> rfl

/-! ### A handler answers by its table -/

/-- What a refusal table says of a reply: a failing test refuses and changes nothing; without one the answer is OK. -/
def AnswersBy (table : Option AnswerCode) (p : Part) (r : Reply) : Prop :=
  match table with
  | some a => r = refuse a p
  | none => r.answer = .ok

theorem firstFailing_cons (b : Bool) (a : AnswerCode) (t : List (Bool × AnswerCode)) :
    firstFailing ((b, a) :: t) = if b then some a else firstFailing t := rfl

theorem firstFailing_nil : firstFailing [] = none := rfl

theorem doSetProfile_answers (args : List Byte) (p : Part) : AnswersBy (p.refusal 0x04 args) p (doSetProfile args p) := by
  simp only [Part.refusal, doSetProfile, firstFailing_cons, firstFailing_nil, Profile.ofCode]
  generalize readU8 args 0 = a
  by_cases h0 : a = 0
  · subst h0
    by_cases hs : p.saw.state = .parked <;> rcases ha : p.hasActive <;> simp [AnswersBy, hs, accept, refuse]
  by_cases h1 : a = 1
  · subst h1
    by_cases hs : p.saw.state = .parked <;> simp [AnswersBy, hs, accept, refuse]
  by_cases h2 : a = 2
  · subst h2
    by_cases hs : p.saw.state = .parked <;> simp [AnswersBy, hs, accept, refuse]
  by_cases h3 : a = 3
  · subst h3
    by_cases hs : p.saw.state = .parked <;> simp [AnswersBy, hs, accept, refuse]
  have h4 : 3 < a := by omega
  simp [AnswersBy, h0, h1, h2, h3, h4, refuse]

theorem doSetFeed_answers (args : List Byte) (p : Part) : AnswersBy (p.refusal 0x05 args) p (doSetFeed args p) := by
  simp [Part.refusal, doSetFeed, firstFailing_cons, firstFailing_nil, FeedValue.ofCode]
  generalize readU8 args 0 = a
  by_cases h0 : a = 0
  · subst h0
    rcases hw : p.monitor.profile.works <;> rcases ha : p.hasActive <;> simp [AnswersBy, accept, refuse]
  by_cases h1 : a = 1
  · subst h1
    rcases hw : p.monitor.profile.works <;> rcases ha : p.hasActive <;> simp [AnswersBy, accept, refuse]
  by_cases h2 : a = 2
  · subst h2
    rcases hw : p.monitor.profile.works <;> rcases ha : p.hasActive <;> simp [AnswersBy, accept, refuse]
  have h4 : 2 < a := by omega
  simp [AnswersBy, h0, h1, h2, h4, refuse]

theorem readU8_lt (bs : List Byte) (i : Nat) : readU8 bs i < 256 := (byteAt bs i).isLt

theorem doKnifeOverride_answers (args : List Byte) (p : Part) :
    AnswersBy (p.refusal 0x06 args) p (doKnifeOverride args p) := by
  simp [Part.refusal, doKnifeOverride, firstFailing_cons, firstFailing_nil]
  generalize readU8 args 0 = a
  by_cases h : a = 255
  · simp [h, AnswersBy, accept]
  · by_cases h1 : 100 < a <;> simp [h, h1, AnswersBy, accept]

theorem doTakeover_answers (args : List Byte) (p : Part) : AnswersBy (p.refusal 0x07 args) p (doTakeover args p) := by
  simp [Part.refusal, doTakeover, firstFailing_cons, firstFailing_nil]
  split
  · rfl
  · split
    · rfl
    · split <;> rfl

theorem doCutNow_answers (args : List Byte) (p : Part) : AnswersBy (p.refusal 0x08 args) p (doCutNow args p) := by
  simp [Part.refusal, doCutNow, firstFailing_cons, firstFailing_nil]
  have : p.saw.state.refusesCut = true ↔ ¬p.saw.state = .parked ∧ ¬p.saw.state = .fault := by
    cases p.saw.state <;> simp [SawState.refusesCut]
  simp only [this]
  repeat' split
  all_goals rfl

theorem doOpenStem_answers (args : List Byte) (p : Part) : AnswersBy (p.refusal 0x10 args) p (doOpenStem args p) := by
  simp [Part.refusal, doOpenStem, firstFailing_cons, firstFailing_nil]
  rcases p.validSpecies (readU8 args 0) with _ | c
  · rfl
  · by_cases h1 : 4 < readU8 args 1
    · simp [h1, AnswersBy]
    · simp only [Option.some_ne_none, if_false, h1, false_or]
      split
      · rfl
      · rcases p.freeSlot with _ | i <;> simp [AnswersBy, accept]

theorem withStem_answers {args : List Byte} {p : Part} {k : Fin 8 → Record → Reply}
    {tests : Fin 8 → Record → List (Bool × AnswerCode)}
    (h : ∀ i r, AnswersBy (firstFailing (tests i r)) p (k i r)) :
    AnswersBy (p.stemTests args tests) p (withStem (readStem args) p k) := by
  unfold Part.stemTests withStem
  rcases p.lookup (readStem args) with _ | i
  · rfl
  · dsimp only
    rcases p.recordAt i with _ | r
    · rfl
    · exact h i r

theorem doAttachStem_answers (args : List Byte) (p : Part) : AnswersBy (p.refusal 0x11 args) p (doAttachStem args p) := by
  refine withStem_answers fun i r => ?_
  simp only [firstFailing_cons, firstFailing_nil, beq_iff_eq, Bool.or_eq_true]
  repeat' split
  all_goals rfl

theorem doFinishStem_answers (args : List Byte) (p : Part) : AnswersBy (p.refusal 0x12 args) p (doFinishStem args p) := by
  refine withStem_answers fun i r => ?_
  simp only [firstFailing_cons, firstFailing_nil, beq_iff_eq, Bool.or_eq_true]
  repeat' split
  all_goals rfl

theorem doRetireStem_answers (args : List Byte) (p : Part) : AnswersBy (p.refusal 0x13 args) p (doRetireStem args p) := by
  refine withStem_answers fun i r => ?_
  simp only [firstFailing_cons, firstFailing_nil, beq_iff_eq]
  repeat' split
  all_goals rfl

theorem doReadStem_answers (args : List Byte) (p : Part) : AnswersBy (p.refusal 0x14 args) p (doReadStem args p) :=
  withStem_answers fun _ _ => rfl

theorem doReadEntries_answers (args : List Byte) (p : Part) :
    AnswersBy (p.refusal 0x15 args) p (doReadEntries args p) := by
  refine withStem_answers fun i r => ?_
  simp only [firstFailing_cons, firstFailing_nil, beq_iff_eq, Bool.or_eq_true, decide_eq_true_eq]
  repeat' split
  all_goals rfl

theorem doAppendEntry_answers (args : List Byte) (p : Part) :
    AnswersBy (p.refusal 0x18 args) p (doAppendEntry args p) := by
  refine withStem_answers fun i r => ?_
  simp only [amendmentTests, List.cons_append, List.nil_append, firstFailing_cons, firstFailing_nil, beq_iff_eq, bne_iff_ne,
    Bool.not_eq_true', decide_eq_true_eq, listLimit]
  by_cases hl : 12 ≤ r.entries.length
  all_goals
    simp only [hl, if_true, if_false]
    repeat' split
    all_goals rfl

theorem namesArmed_of_reach {r : Record} {index : Nat} {e : Entry} (h : r.reach index = some e) :
    r.namesArmed index = (e.state == .armed) := by simp [Record.namesArmed, h]

theorem doInsertEntry_answers (args : List Byte) (p : Part) :
    AnswersBy (p.refusal 0x19 args) p (doInsertEntry args p) := by
  refine withStem_answers fun i r => ?_
  simp only [amendmentTests, List.cons_append, List.nil_append, firstFailing_cons, firstFailing_nil, beq_iff_eq, bne_iff_ne,
    Bool.not_eq_true', decide_eq_true_eq, listLimit, Bool.and_eq_true, Record.insertState, Option.isNone_iff_eq_none]
  by_cases hf : r.state = .finished
  · simp [hf, AnswersBy]
  by_cases hr : readWord args 2 = r.revision
  · simp only [hf, hr, if_false, not_true_eq_false, ne_eq]
    by_cases hi : readU8 args 4 = r.entries.length
    · have hn : r.reach (readU8 args 4) = none := by simp [Record.reach, hi]
      simp only [hi, if_true, not_true_eq_false, and_false, if_false]
      have hn' : r.namesArmed r.entries.length = false := by rw [← hi]; simp [Record.namesArmed, hn]
      simp only [hn']
      repeat' split
      all_goals first | rfl | simp_all
    · simp only [hi, if_false, not_false_eq_true, and_true]
      rcases hn : r.reach (readU8 args 4) with _ | e
      · rfl
      · simp only [Option.map_some, namesArmed_of_reach hn, beq_iff_eq]
        by_cases hl : 12 ≤ r.entries.length
        all_goals
          simp only [hl, if_true, if_false, reduceCtorEq]
          repeat' split
          all_goals rfl
  · simp [hf, hr, AnswersBy]

theorem doChangeEntry_answers (args : List Byte) (p : Part) :
    AnswersBy (p.refusal 0x1A args) p (doChangeEntry args p) := by
  refine withStem_answers fun i r => ?_
  simp only [amendmentTests, List.cons_append, List.nil_append, firstFailing_cons, firstFailing_nil, beq_iff_eq, bne_iff_ne,
    Bool.not_eq_true', Bool.and_eq_true, Option.isNone_iff_eq_none]
  by_cases hf : r.state = .finished
  · simp [hf, AnswersBy]
  by_cases hr : readWord args 2 = r.revision
  · simp only [hf, hr, if_false, not_true_eq_false, ne_eq]
    rcases hn : r.reach (readU8 args 4) with _ | e
    · rfl
    · simp only [namesArmed_of_reach hn]
      repeat' split
      all_goals first | rfl | simp_all
  · simp [hf, hr, AnswersBy]

theorem doCancelEntry_answers (args : List Byte) (p : Part) :
    AnswersBy (p.refusal 0x1B args) p (doCancelEntry args p) := by
  refine withStem_answers fun i r => ?_
  simp only [amendmentTests, List.cons_append, List.nil_append, firstFailing_cons, firstFailing_nil, beq_iff_eq, bne_iff_ne,
    Bool.and_eq_true, Option.isNone_iff_eq_none]
  by_cases hf : r.state = .finished
  · simp [hf, AnswersBy]
  by_cases hr : readWord args 2 = r.revision
  · simp only [hf, hr, if_false, not_true_eq_false, ne_eq]
    rcases hn : r.reach (readU8 args 4) with _ | e
    · rfl
    · simp only [namesArmed_of_reach hn]
      repeat' split
      all_goals first | rfl | simp_all
  · simp [hf, hr, AnswersBy]

theorem speciesCode_none_iff {n : Nat} : speciesCode n = none ↔ 31 < n := by
  unfold speciesCode
  split <;> simp <;> omega

theorem doReadSpecies_answers (args : List Byte) (p : Part) :
    AnswersBy (p.refusal 0x20 args) p (doReadSpecies args p) := by
  simp [Part.refusal, doReadSpecies, firstFailing_cons, firstFailing_nil]
  rcases h : speciesCode (readU8 args 0) with _ | c
  · simp [speciesCode_none_iff.1 h, AnswersBy]
  · have : ¬ 31 < readU8 args 0 := fun k => by simp [speciesCode_none_iff.2 k] at h
    simp [this, AnswersBy, accept]

theorem doWriteSpecies_answers (args : List Byte) (p : Part) :
    AnswersBy (p.refusal 0x21 args) p (doWriteSpecies args p) := by
  simp [Part.refusal, doWriteSpecies, firstFailing_cons, firstFailing_nil]
  rcases h : speciesCode (readU8 args 0) with _ | c
  · simp [speciesCode_none_iff.1 h, AnswersBy]
  · have : ¬ 31 < readU8 args 0 := fun k => by simp [speciesCode_none_iff.2 k] at h
    simp only [this, if_false]
    repeat' split
    all_goals rfl

theorem doClearSpecies_answers (args : List Byte) (p : Part) :
    AnswersBy (p.refusal 0x22 args) p (doClearSpecies args p) := by
  simp [Part.refusal, doClearSpecies, firstFailing_cons, firstFailing_nil]
  rcases h : speciesCode (readU8 args 0) with _ | c
  · simp [speciesCode_none_iff.1 h, AnswersBy]
  · have : ¬ 31 < readU8 args 0 := fun k => by simp [speciesCode_none_iff.2 k] at h
    simp only [this, if_false, Option.any_some]
    repeat' split
    all_goals rfl

theorem calibrateEntry_answers (r : Record) (x : Results) (length : Option Int) (diameter : Option Nat) (p : Part) :
    AnswersBy (firstFailing [
      (length.isSome && decide ((x.rawWheel).getD 0 < 100), .notCalibratable),
      (diameter.isSome && (x.cutDia.map Int.ofNat).isNone, .notCalibratable),
      (length.any fun l => !corrAllowed (p.species r.species).wheelCorr (calibratedCorr l (x.rawWheel.getD 0)), .badArgument),
      (diameter.any fun d => !within (-20) 20 (diamStep (p.species r.species) d ((x.cutDia.map Int.ofNat).getD 0)),
        .badArgument)]) p (calibrateEntry r x length diameter p) := by
  unfold calibrateEntry calibrated
  rcases length with _ | l <;> rcases diameter with _ | d <;> rcases hw : x.rawWheel with _ | w <;>
    rcases hc : x.cutDia with _ | c <;>
    simp [firstFailing_cons, firstFailing_nil] <;>
    (repeat' split) <;> first | rfl | simp_all [AnswersBy]

theorem doCalibrate_answers (args : List Byte) (p : Part) :
    AnswersBy (p.refusal 0x23 args) p (doCalibrate args p) := by
  refine withStem_answers fun i r => ?_
  rcases r.entries[readU8 args 2]? with _ | e
  · rfl
  · simp only [Part.calibrateTests]
    rw [firstFailing_cons, firstFailing_cons, firstFailing_cons]
    by_cases ht : truthsAllowed (readOptI32 args 3) (readOptU16 args 7)
    · simp only [ht, Bool.not_true, Bool.false_eq_true, if_false, Bool.true_eq_false]
      rcases hs : p.storing
      · simp only [Bool.false_eq_true, if_false]
        rcases hx : e.results with _ | x
        · rcases e.state <;> rfl
        · by_cases hd : e.state = .done
          · simp only [hd, bne_self_eq_false, Option.isNone_some, Bool.or_self, Bool.false_eq_true, if_false,
              Option.bind_some]
            exact calibrateEntry_answers r x _ _ p
          · simp only [bne_iff_ne, ne_eq, hd, not_false_eq_true, Bool.or_eq_true, true_or, if_true]
            split <;> simp_all [AnswersBy]
      · rfl
    · simp [ht, AnswersBy]

theorem settingNumber_none_iff {n : Nat} : settingNumber n = none ↔ 39 < n := by
  unfold settingNumber
  split <;> simp <;> omega

theorem doReadSetting_answers (args : List Byte) (p : Part) :
    AnswersBy (p.refusal 0x28 args) p (doReadSetting args p) := by
  simp [Part.refusal, doReadSetting, firstFailing_cons, firstFailing_nil]
  rcases h : settingNumber (readU8 args 0) with _ | c
  · simp [settingNumber_none_iff.1 h, AnswersBy]
  · have : ¬ 39 < readU8 args 0 := fun k => by simp [settingNumber_none_iff.2 k] at h
    simp [this, AnswersBy, accept]

theorem doWriteSetting_answers (args : List Byte) (p : Part) :
    AnswersBy (p.refusal 0x29 args) p (doWriteSetting args p) := by
  simp [Part.refusal, doWriteSetting, firstFailing_cons, firstFailing_nil]
  rcases h : settingNumber (readU8 args 0) with _ | c
  · rfl
  · dsimp only
    repeat' split
    all_goals rfl

theorem doStore_answers (args : List Byte) (p : Part) : AnswersBy (p.refusal 0x2A args) p (doStore args p) := by
  simp [Part.refusal, doStore, firstFailing_cons, firstFailing_nil]
  split <;> rfl

theorem doReset_answers (args : List Byte) (p : Part) : AnswersBy (p.refusal 0x30 args) p (doReset args p) := by
  simp [Part.refusal, doReset, firstFailing_cons, firstFailing_nil, ResetKind.ofCode]
  generalize readU8 args 0 = a
  by_cases h0 : a = 0
  · simp [h0, AnswersBy, accept]
  by_cases h1 : a = 1
  · simp [h1, AnswersBy, accept]
  have : 1 < a := by omega
  simp [h0, h1, this, AnswersBy]

/-- Every request's handler answers by the table of its rule. -/
theorem handlerOf_answers {code : Byte} (h : code ∈ requestCodes) (args : List Byte) (p : Part) :
    AnswersBy (p.refusal code args) p (handlerOf code args p) := by
  simp only [requestCodes, List.mem_cons, List.not_mem_nil, or_false] at h
  rcases h with rfl | rfl | rfl | rfl | rfl | rfl | rfl | rfl | rfl | rfl | rfl | rfl | rfl | rfl | rfl | rfl | rfl | rfl |
    rfl | rfl | rfl | rfl | rfl | rfl | rfl | rfl
  · exact (rfl : (doStatus args p).answer = .ok)
  · exact (rfl : (doReadConditions args p).answer = .ok)
  · exact (rfl : (doSetMasks args p).answer = .ok)
  · exact doSetProfile_answers args p
  · exact doSetFeed_answers args p
  · exact doKnifeOverride_answers args p
  · exact doTakeover_answers args p
  · exact doCutNow_answers args p
  · exact doOpenStem_answers args p
  · exact doAttachStem_answers args p
  · exact doFinishStem_answers args p
  · exact doRetireStem_answers args p
  · exact doReadStem_answers args p
  · exact doReadEntries_answers args p
  · exact doAppendEntry_answers args p
  · exact doInsertEntry_answers args p
  · exact doChangeEntry_answers args p
  · exact doCancelEntry_answers args p
  · exact doReadSpecies_answers args p
  · exact doWriteSpecies_answers args p
  · exact doClearSpecies_answers args p
  · exact doCalibrate_answers args p
  · exact doReadSetting_answers args p
  · exact doWriteSetting_answers args p
  · exact doStore_answers args p
  · exact doReset_answers args p

/-! ### Taking a request -/

/-- The part that a handler meets: the request has left the queue, and the send list is set aside for the answer. -/
def Part.handed (p : Part) (rest : List (List Byte)) : Part :=
  { p with link := { p.link with requests := rest, sendList := [] } }

theorem Part.heads.takes {p : Part} {code tag : Byte} {args : List Byte} {rest : List (List Byte)}
    (h : p.heads code tag args rest) : (p.takesRequests && p.headIs code) = true := by
  obtain ⟨_, hp, hl, hr⟩ := h
  simp [Part.takesRequests, Part.headIs, hp, hl, hr]

/-- What the row of a request at the head of the queue does. -/
theorem request_heads {p : Part} {code tag : Byte} {args : List Byte} {rest : List (List Byte)}
    (need : List Byte → Nat) (handler : List Byte → Part → Reply) (h : p.heads code tag args rest) :
    request code need handler p = conclude p (answered p.link.sendList
      ((screen code need handler args (p.handed rest)).toAnswer code tag)
      (screen code need handler args (p.handed rest)).part) := by
  unfold request perform
  rw [h.takes, h.1]
  simp [serve, h.2.2.2, Part.handed]

/-- A request that passes screening is handed to its owner. -/
theorem request_offers {p : Part} {code tag : Byte} {args : List Byte} {rest : List (List Byte)}
    {need : List Byte → Nat} (handler : List Byte → Part → Reply) (h : p.offers code tag args rest)
    (hn : need args ≤ args.length) :
    request code need handler p = conclude p (answered p.link.sendList
      ((handler args (p.handed rest)).toAnswer code tag) (handler args (p.handed rest)).part) := by
  rw [request_heads need handler h.1]
  have hs : screen code need handler args (p.handed rest) = handler args (p.handed rest) := by
    unfold screen
    rw [if_neg (by omega), if_neg]
    rcases h.2 with h | h
    · simp [Part.handed, h]
    · rw [h]; simp
  rw [hs]

/-- A settled part whose request changes nothing keeps everything but its queue and its send list. -/
theorem conclude_refused {p : Part} (h : Quiet p) (a : Answer) (rest : List (List Byte))
    (hl : p.link.sendList.length < 16) :
    conclude p (answered p.link.sendList a (p.handed rest)) = p.withAnswer a rest := by
  have hq : Quiet { p with link := { p.link with requests := rest } } :=
    ⟨h.pending, h.holds, h.drop, h.slip, h.ready, h.knife, h.image, h.refresh, h.list⟩
  have := hq.conclude_list p rfl rfl (p.link.sendList ++ [.answer a])
  rw [List.take_of_length_le (by simp; omega)] at this
  exact this

end Sys2Proof.Machine
end

