-- ==== Sys2Proof/WellFormed.lean ====
section
/-! DEFINITION. Which commands are well formed: the frames among them are frames the bus can carry. -/

namespace Sys2Proof

/-- The data field lengths the head bus permits (11 R202). -/
def busLengths : List Nat := [0, 1, 2, 3, 4, 5, 6, 7, 8, 12, 16, 20, 24, 32, 48, 64]

/-- A frame's data field has a permitted length, and a remote frame carries no data. -/
def BusFrame.wf (f : BusFrame) : Bool :=
  busLengths.contains f.data.length && (!f.remote || f.data.isEmpty)

/-- Only the two commands that carry a frame can be ill formed. Every other operand's type holds exactly its values. -/
def Instr.wf : Instr → Bool
  | .requestFrame f => f.wf
  | .stickFrame f => f.wf
  | .powerOn _ => true
  | .badRequest => true
  | .status => true
  | .readConditions => true
  | .setMasks => true
  | .setProfile => true
  | .setFeed => true
  | .knifeOverride => true
  | .takeover => true
  | .cutNow => true
  | .openStem => true
  | .attachStem => true
  | .finishStem => true
  | .retireStem => true
  | .readStem => true
  | .readEntries => true
  | .appendEntry => true
  | .insertEntry => true
  | .changeEntry => true
  | .cancelEntry => true
  | .readSpecies => true
  | .writeSpecies => true
  | .clearSpecies => true
  | .calibrate => true
  | .readSetting => true
  | .writeSetting => true
  | .store => true
  | .storeCompletion _ => true
  | .reset => true
  | .startupDeadline => true
  | .frameTransmitted => true
  | .transmitError => true
  | .busOffRecovery => true
  | .valveRefreshExpiry => true
  | .takeoverReleaseExpiry => true
  | .advanceExpectationExpiry => true
  | .wheelCount _ => true
  | .rollerCount _ => true
  | .wheelContactSwitch _ => true
  | .endSensorChange _ => true
  | .gripSampleExpiry => true
  | .armLineReading _ _ => true
  | .lineOutOfWindowExpiry _ => true
  | .lineInWindowExpiry _ => true
  | .dropTimerExpiry => true
  | .settleTimerExpiry => true
  | .stallTimerExpiry => true
  | .barLeavesHome => true
  | .endOfStroke => true
  | .barHome => true
  | .cutTimerExpiry => true
  | .returnTimerExpiry => true
  | .lossOfPower => true

end Sys2Proof
end

