-- ==== Sys2Proof/Tests/Slice0.lean ====
section
/-! SUPPORT. The model's own tests: ill-formed frames refused, worked values of the spec, and for every statement a state and
operands that meet its hypotheses, clause by clause where clauses meet. -/

namespace Sys2Proof.Tests

open Sys2Proof.Machine

set_option Elab.async false

/-! ### Small states -/

/-- A part once an event is over. -/
def ended (p : Part) : Part := conclude p p

theorem settled_ended (p : Part) : Settled (ended p) := conclude_settled p p

/-- The part READY in a profile, no stem in the head, every line OK at 300 mm. -/
def ready (profile : Profile) : Part :=
  let p := State.reset.part
  ended { p with
    boot := { ready := true, elapsed := none, resetPending := none }
    pins := { p.pins with readings := Vector.replicate 3 1500 }
    diameter := { p.diameter with lines := Vector.replicate 3 { state := .ok, run := some 0, lastOut := none } }
    monitor := { p.monitor with profile } }

/-- A PLAN entry of a target, tolerances 40 and 30 mm. -/
def entry (ident : Nat) (state : EntryState) (target : Int) : Entry :=
  { ident, state, results := none
    plan := { target, minus := 40, plus := 30, minDia := none, assort := 1, origin := .plan } }

/-- A stem record with a cut list. -/
def stem (state : RecordState) (reference : Reference) (entries : List Entry) : Record :=
  { state, species := 0, reference, felled := true, stump := some 300, revision := 4, entries, nextIdent := 12, logCount := 0
    produced := 0, excessCount := 0, excessLength := 0, topRemnant := none, topSeen := false, held := none, dropCount := 0
    takeoverSeen := false }

/-- The part with a record in slot 0 and no other. -/
def holding (profile : Profile) (r : Record) : Part := ended ((ready profile).setRecord 0 (some r))

/-- The feed at work: value RUN, a state, the entry it holds. -/
def feeding (state : FeedState) (held : Option Entry) : Feed :=
  { Feed.reset with
    value := .run, state, held := held.map Entry.heldEntry
    watch := if state.motion then some { base := 0, elapsed := 0 } else none
    settle := if state = .settle then some 0 else none
    request := if state = .cutWait then .taken .automatic else .none }

/-- The part in PROCESS with an ACTIVE referenced stem at a log position in mm, 200 mm thick, and a feed. -/
def working (es : List Entry) (pos : Int) (feed : Feed) : Part :=
  let p := holding .process (stem .active .cut es)
  ended { p with
    length := { p.length with
      logPos := some (pos * 1000), history := some { mark := .roller, slip := false, creep := false, raw := 0 }, mirror := true }
    diameter := { p.diameter with distance := some 0, samples := [200] }
    feed }

/-- An ARMED entry of 4,000 mm and a PENDING one of 3,000 mm. -/
def plan : List Entry := [entry 0 .armed 4000, entry 1 .pending 3000]

/-- A feed on its way to 4,000 mm, at 1,000 mm. -/
def onTheWay : Part := working plan 1000 (feeding .feed (some (entry 0 .armed 4000)))

/-- The saw in a cycle. -/
def sawing (state : SawState) (c : Option Cycle) : Saw :=
  { state, cycle := c, expectation := none
    cutTimer := if state = .advancing then some 0 else none
    returnTimer := if state = .returning then some 0 else none }

/-- A cycle of the part. -/
def cycle (attempt : Nat) (cause : Option ReturnCause) : Cycle :=
  { owner := .part, kind := .automatic, attempt, cause, completionSeen := false, commanded := false, fromFault := false }

/-- The results of a log of 3,990 mm with a raw wheel length and a cut diameter. -/
def results (rawWheel : Option Int) (cutDia : Option Nat) : Results :=
  { actual := 3990, cutDia, midDia := none, rawWheel, source := .wheel, corrections := 0
    flags := { slip := false, creep := false, short := false, long := false, manual := false, direct := false
               droppedDuringCut := false } }

/-- A cut in flight: the bar away from home, an entry CUTTING, the cut bound to slot 0. -/
def cutting (saw : Saw) (target : CutTarget) (es : List Entry) : Part :=
  let p := working es 4000 (feeding .cutWait none)
  ended { p with
    pins := { p.pins with homeClosed := false }
    length := { p.length with carry := some { pos := 0, log := { mark := .roller, slip := false, creep := false, raw := 0 } } }
    table := { p.table with bound := some { slot := 0, kind := .automatic, target } }
    saw }

/-- The part with requests in its queue. -/
def asked (bs : List (List Byte)) (p : Part) : Part := ended { p with link := { p.link with requests := bs } }

/-- The part in bus-off. -/
def offBus (p : Part) : Part := ended { p with link := { p.link with busOff := true, valve := none } }

/-- The part with a setting. -/
def setTo (n : Nat) (v : Int) (p : Part) : Part :=
  ended { p with store := { p.store with working := { p.store.working with
    settings := p.store.working.settings.setIfInBounds n v } } }

/-- A state with no other command waiting. -/
def alone (p : Part) : State := { part := p, pending := [] }

/-- The part after a command. -/
def after (c : Instr) (p : Part) : Part :=
  match exec c (alone p) with
  | .next s => s.part
  | _ => p

/-! ### Well-formedness -/

/-- A data field of 9 bytes is no data field of the bus. -/
theorem test_wf_refuses_length : (Instr.requestFrame { id := 0x5A0, remote := false, data := List.replicate 9 0 }).wf = false := by
  decide

theorem test_wf_refuses_stick_length : (Instr.stickFrame { id := 0x2B0, remote := false, data := List.replicate 65 0 }).wf = false := by
  decide

/-- A remote frame carries no data. -/
theorem test_wf_refuses_remote_data : (Instr.requestFrame { id := 0x5A0, remote := true, data := [1] }).wf = false := by decide

theorem test_wf_takes_frame : (Instr.requestFrame { id := 0x5A0, remote := false, data := List.replicate 12 0 }).wf = true := by
  decide

/-- No word spells a command. -/
theorem test_no_word_decodes : decodeTableWord 8 1 = none := by decide

/-! ### Reset and power -/

/-- Power-on of the part as it comes to be switched on with a sound copy of the defaults is the reset state. -/
theorem test_power_on_is_reset :
    after (.powerOn 0) { State.reset.part with powered := false } = State.reset.part := by decide +kernel

theorem test_core_reset : Sys2Proof.core.reset = State.reset := rfl

/-- The address straps give the node address while NODE_OVERRIDE is 0. -/
theorem test_straps_give_node : (after (.powerOn 3) State.reset.part).link.node = 3 := by decide +kernel

/-! ### Worked values of the spec -/

/-- 09 R180: L 4,290 mm over W 4,312 mm gives −5,102 ppm, rounded to nearest. -/
theorem test_calibrated_corr : calibratedCorr 4290 4312 = -5102 := by decide

/-- 03 R61: positions are truncated toward zero. -/
theorem test_log_mm_truncates :
    ((-250400 : Int).tdiv 1000, (4119999 : Int).tdiv 1000) = (-250, 4119) := by decide

/-- 03 R53: a forward count under a correction leaves its remainder, and the same count back takes it away. -/
theorem test_count_there_and_back :
    (({ acc := 0, rem := 0 } : Encoder).count 400 (-5102) true, (({ acc := 0, rem := 0 } : Encoder).count 400 (-5102) true).count
      400 (-5102) false) = ({ acc := 397, rem := 959200 }, { acc := 0, rem := 0 }) := by decide

/-- 03 R53, the third example: three counts move the accumulator by 1,201 µm and carry 0.4808 µm, forward or back. -/
theorem test_three_counts :
    ((({ acc := 0, rem := 0 } : Encoder).count 400 1234 true).count 400 1234 true).count 400 1234 true
        = { acc := 1201, rem := 480800 }
    ∧ ((({ acc := 401000, rem := 0 } : Encoder).count 400 1234 false).count 400 1234 false).count 400 1234 false
        = { acc := 399799, rem := -480800 } := by decide

/-- 04 R89: half an odd target lies at half a millimetre; an H that is kept with no entry ARMED is crossed too, a log without H has no
crossing, and a second crossing replaces nothing. -/
theorem test_mid_crossing :
    (let at_ (mid : MidWatch) (armed : Option (Option Nat)) (a b : Int) := (midCross (some a) { onTheWay with
        length := { onTheWay.length with logPos := some b }
        diameter := { onTheWay.diameter with entry := armed, mid } }).diameter.mid.capture;
      let half (t : Int) : MidWatch := { target := some t, capture := none, crossed := false };
      (at_ (half 4001) (some none) 2000499 2000500, at_ (half 4001) (some none) 2000000 2000499,
        at_ (half 4000) none 1999999 2000000, at_ ((half 4000).newLog false) none 1999999 2000000,
        at_ { half 4000 with capture := some 210, crossed := true } (some none) 1999999 2000000))
      = (some 200, none, some 200, none, some 210) := by decide +kernel

/-- Half of 4,000 mm lies behind at 2,000,000 µm and not 1 µm before: such a new target captures nothing in this log, also where the
stem is fed over it again; the target held keeps its watch; without a position nothing lies behind (log 40). -/
theorem test_mid_half_behind :
    (let m : MidWatch := { target := some 3000, capture := some 9, crossed := true };
      let at_ (pos : Option Int) := (m.take pos (some (entry 0 .armed 4000))).crossed;
      (at_ (some 1999999), at_ (some 2000000), at_ none, m.take (some 0) (some (entry 1 .armed 3000)), m.take (some 0) none))
      = (false, true, false, { target := some 3000, capture := some 9, crossed := true },
          { target := some 3000, capture := some 9, crossed := true })
    ∧ (let mid := MidWatch.take { target := none, capture := none, crossed := false } (some 2000000) (some (entry 0 .armed 4000));
        (midCross (some 1999999) { onTheWay with
          length := { onTheWay.length with logPos := some 2000000 }
          diameter := { onTheWay.diameter with entry := some none, mid } }).diameter.mid.capture) = none := by decide +kernel

/-- 04 R84: the largest estimate, gain and offset give 4,774 mm. -/
theorem test_sample_largest :
    sampleOf { Species.builtIn true with diamGain := 100000, diamOffset := 50, bark := 0 } (4 * 4295000) = 4774 := by decide

/-- 04 R84: a difference below 0 is 0. -/
theorem test_sample_not_below_zero : sampleOf (Species.builtIn true) (4 * 5000) = 0 := by decide

/-- 04 R85: the fifth sample pushes the oldest out. -/
theorem test_fifth_sample : pushSample [1, 2, 3, 4] 5 = [2, 3, 4, 5] := by decide

/-- 10 R200, 11 R202: the release frame is five bytes of zero. -/
theorem test_release_frame : releaseData = [0, 0, 0, 0, 0] := rfl

/-- The send identifiers of node 3. -/
theorem test_identifiers : (requestId 3, answerId 3, noticeId 3) = (0x5A3, 0x5B3, 0x5C3) := by decide

/-- A frame of 9 bytes of contents is padded to 12. -/
theorem test_padding : (padFrame (List.replicate 9 1)).length = 12 := by decide

/-! ### The statements' hypotheses are met

One theorem per statement: states and operands that meet its premises, one for each clause where it has several. Every part
below is `ended` or follows a command, so it is settled (`settled_ended`). -/

theorem test_meets_EmptyQueueStep :
    (Part.powered { State.reset.part with powered := false } = false)
    ∧ (asked [[0x01, 7]] (ready .process)).heads 0x01 7 [] []
    ∧ Part.own { State.reset.part with boot := { State.reset.part.boot with elapsed := some 2000 } } = some .startupDeadline
    ∧ Part.own { State.reset.part with boot := { State.reset.part.boot with elapsed := some 1999 } } = none := by
  unfold Part.heads
  decide +kernel

theorem test_meets_UnpoweredPartOnlySensesItsPins :
    ∃ q, Runs .barLeavesHome (alone { State.reset.part with powered := false }) q ∧ q.pins.homeClosed = false :=
  ⟨_, rfl, rfl⟩

theorem test_meets_PowerGoesAndComes :
    State.reset.part.store.cutOff.sound = true
    ∧ (Store.cutOff { State.reset.part.store with inFlight := some 3 }).sound = false := by decide

theorem test_meets_StartupDeadlineEntersReady :
    Settled (ended State.reset.part) ∧ Settled (ready .off)
    ∧ (ended State.reset.part).boot.ready = false ∧ (ended State.reset.part).powered = true
    ∧ (ended State.reset.part).lineEnabled .ka = true ∧ ((ended State.reset.part).line .ka).state = .qualifying
    ∧ (setTo 18 0 State.reset.part).lineEnabled .ka = false
    ∧ (ready .off).boot.ready = true ∧ (ready .off).powered = true :=
  ⟨settled_ended _, settled_ended _, by decide +kernel⟩

theorem test_meets_RequestFrameJoinsQueue :
    Settled (asked (List.replicate 3 [1, 1]) (ready .off)) ∧ Settled (asked (List.replicate 4 [1, 1]) (ready .off))
    ∧ (asked (List.replicate 3 [1, 1]) (ready .off)).link.requests.length = 3
    ∧ (asked (List.replicate 4 [1, 1]) (ready .off)).link.requests.length = 4
    ∧ requestId (ready .off).link.node = 0x5A0 ∧ (ready .off).link.busOff = false ∧ (offBus (ready .off)).link.busOff = true :=
  ⟨settled_ended _, settled_ended _, by decide +kernel⟩

theorem test_meets_ScreeningComesFirst :
    Settled (asked [[0x01]] (ready .off))
    ∧ (asked [[0x01]] (ready .off)).link.requests = [0x01] :: []
    ∧ (asked [[0x09, 5]] (ready .off)).link.requests = (0x09 :: 5 :: []) :: [] ∧ (0x09 : Byte) ∉ requestCodes
    ∧ (asked [[0x05, 5]] (ready .off)).link.requests = (0x05 :: 5 :: []) :: [] ∧ (0x05 : Byte) ∈ requestCodes
    ∧ argLength 0x05 [] = 1
    ∧ (asked [[0x05, 5, 2]] State.reset.part).boot.ready = false
    ∧ (asked [[0x05, 5, 2]] State.reset.part).link.sendList.length < 16
    ∧ (asked [[0x05, 5, 2]] State.reset.part).boot.resetPending = none :=
  ⟨settled_ended _, by decide +kernel⟩

/-- A timer has run at its limit and not 1 ms before; a saw cut-off of 16 frames or a queue without requests leaves the timers their
turn. -/
theorem test_meets_EmptyQueueStep_timers :
    (let up (n : Nat) : Part := { State.reset.part with boot := { State.reset.part.boot with elapsed := some n } };
      ((up 1999).own, (up 2000).own)) = (none, some .startupDeadline)
    ∧ (let low (n : Nat) : Part := let p := after (.armLineReading .ka 99) onTheWay;
          { p with diameter := { p.diameter with lines := p.diameter.lines.set 0 { state := .ok, run := some n, lastOut := none } } };
        ((low 19).own, (low 20).own)) = (none, some (.lineOutOfWindowExpiry .ka))
    ∧ (let back (n : Nat) : Part := { onTheWay with diameter := { onTheWay.diameter with
          lines := onTheWay.diameter.lines.set 0 { state := .qualifying, run := some n, lastOut := none } } };
        ((back 199).own, (back 200).own)) = (none, some (.lineInWindowExpiry .ka))
    ∧ (let full := { (asked [[1, 1]] onTheWay) with feed := feeding .settle none };
        { full with feed := { full.feed with settle := some 10000 }
                    link := { full.link with sendList := List.replicate 16 (.notice (.storeDone true)) } }.own)
        = some .settleTimerExpiry := by decide +kernel

theorem test_meets_RequestsAnsweredByTheirTables :
    Settled (asked [[0x05, 5, 3]] onTheWay)
    ∧ (asked [[0x05, 5, 3]] onTheWay).offers 0x05 5 [3] [] ∧ (asked [[0x05, 5, 3]] onTheWay).refusal 0x05 [3] = some .badArgument
    ∧ (asked [[0x05, 5, 2]] onTheWay).offers 0x05 5 [2] [] ∧ (asked [[0x05, 5, 2]] onTheWay).refusal 0x05 [2] = none
    ∧ onTheWay.refusal 0x15 [0, 0, 2, 9] = some .noSuchEntry ∧ onTheWay.refusal 0x15 [0, 0, 1, 9] = some .badArgument := by
  refine ⟨settled_ended _, ?_⟩
  unfold Part.offers Part.heads
  decide +kernel

theorem test_meets_ReadingRequestsAnswerASnapshot :
    Settled (asked [[0x01, 1]] onTheWay) ∧ (asked [[0x01, 1]] onTheWay).granted 0x01 1 [] []
    ∧ (asked [[0x14, 1, 0, 0]] onTheWay).granted 0x14 1 [0, 0] []
    ∧ (asked [[0x14, 1, 0, 0]] onTheWay).lookup (readStem [0, 0]) = some 0
    ∧ (asked [[0x15, 1, 0, 0, 1, 2]] onTheWay).granted 0x15 1 [0, 0, 1, 2] []
    ∧ (asked [[0x20, 1, 31]] onTheWay).granted 0x20 1 [31] [] ∧ speciesCode 31 = some 31
    ∧ (asked [[0x28, 1, 39]] onTheWay).granted 0x28 1 [39] [] ∧ settingNumber 39 = some 39 := by
  refine ⟨settled_ended _, ?_⟩
  unfold Part.granted Part.offers Part.heads
  decide +kernel

theorem test_meets_ConditionRequestsReadClearAndMask :
    Settled (asked [[0x02, 1, 0, 0]] State.reset.part) ∧ (asked [[0x02, 1, 0, 0]] State.reset.part).granted 0x02 1 [0, 0] []
    ∧ (asked [[0x03, 1, 255, 255]] (ready .off)).granted 0x03 1 [255, 255] [] := by
  refine ⟨settled_ended _, ?_⟩
  unfold Part.granted Part.offers Part.heads
  decide +kernel

theorem test_meets_RaisingLatchesAndAnnounces :
    State.reset.part.raised .overrun = false ∧ State.reset.part.link.mask.getLsbD Condition.overrun.bit = false
    ∧ (raise .overrun State.reset.part).raised .overrun = true := by decide +kernel

/-- A stem at a position whose ARMED entry of 4,000 mm the guidance holds a window for. -/
def guided (profile : Profile) (pos : Int) : Part :=
  let p := working plan pos (feeding .grip none)
  ended { p with monitor := { p.monitor with
    profile, guidance := { window := true, last := some (0, (entry 0 .armed 4000).plan), announced := false } } }

/-- At the lower tolerance the switch to MEASURE_ONLY announces the target, one millimetre before it does not. -/
theorem test_meets_SetProfileSetsAllInOneStep_guidance :
    (asked [[0x04, 1, 1]] (guided .process 3960)).granted 0x04 1 [1] []
    ∧ ((guided .process 3960).atTarget .measureOnly (entry 0 .armed 4000).plan,
        (guided .process 3959).atTarget .measureOnly (entry 0 .armed 4000).plan) = (true, false)
    ∧ (after .setProfile (asked [[0x04, 1, 1]] (guided .process 3960))).monitor.guidance.announced = true := by
  unfold Part.granted Part.offers Part.heads
  decide +kernel

theorem test_meets_SetProfileSetsAllInOneStep :
    Settled (asked [[0x04, 1, 1]] onTheWay) ∧ (asked [[0x04, 1, 1]] onTheWay).granted 0x04 1 [1] []
    ∧ Profile.ofCode 1 = some .measureOnly ∧ (asked [[0x04, 1, 1]] onTheWay).sendsValve = true
    ∧ (asked [[0x04, 1, 3]] (ready .off)).granted 0x04 1 [3] [] ∧ Profile.ofCode 3 = some .fellProcess
    ∧ (asked [[0x04, 1, 3]] (ready .off)).sendsValve = false := by
  refine ⟨settled_ended _, ?_⟩
  unfold Part.granted Part.offers Part.heads
  decide +kernel

theorem test_meets_SetFeedSetsTheValue :
    Settled (asked [[0x05, 1, 0]] onTheWay) ∧ (asked [[0x05, 1, 0]] onTheWay).granted 0x05 1 [0] []
    ∧ (asked [[0x05, 1, 0]] onTheWay).feed.cutTaken = false
    ∧ (asked [[0x05, 1, 1]] (working plan 1000 (feeding .cutWait none))).granted 0x05 1 [1] []
    ∧ (asked [[0x05, 1, 1]] (working plan 1000 (feeding .cutWait none))).feed.cutTaken = true
    ∧ (asked [[0x05, 1, 2]] (working plan 1000 (feeding .stalled none))).granted 0x05 1 [2] []
    ∧ (FeedValue.ofCode 0, FeedValue.ofCode 1, FeedValue.ofCode 2) = (some .idle, some .grip, some .run) := by
  refine ⟨settled_ended _, ?_⟩
  unfold Part.granted Part.offers Part.heads
  decide +kernel

/-- A stem of 200 mm whose ARMED entry asks for 201 mm. -/
def tooThin : Part :=
  let p := working plan 1000 { feeding .grip none with value := .grip, held := some (entry 0 .armed 4000).heldEntry }
  ended { p with diameter := { p.diameter with entry := some (some 201) } }

/-- RUN with a thin stem brings the hold into force at once. -/
theorem test_meets_SetFeedSetsTheValue_hold :
    tooThin.thin = true ∧ tooThin.diameter.hold = false
    ∧ (let q := after .setFeed (asked [[0x05, 1, 2]] tooThin); (q.diameter.hold, q.raised .diamReject, q.feed.state))
        = (true, true, .grip) := by decide +kernel

/-- At T − STOP_LEAD the placement is SETTLE, one millimetre before it APPROACH; at T − APPROACH_DIST APPROACH, one before it
FEED. -/
theorem test_meets_DecisionTableRows :
    (working plan 3960 (feeding .grip (some (entry 0 .armed 4000)))).decision = .settle
    ∧ (working plan 3959 (feeding .grip (some (entry 0 .armed 4000)))).decision = .approach
    ∧ (working plan 3600 (feeding .grip (some (entry 0 .armed 4000)))).decision = .approach
    ∧ (working plan 3599 (feeding .grip (some (entry 0 .armed 4000)))).decision = .feed
    ∧ (working plan 1000 (feeding .grip none)).decision = .grip
    ∧ Part.decision { onTheWay with feed := { onTheWay.feed with stallOut := true } } = .stalled
    ∧ Part.decision { onTheWay with saw := { onTheWay.saw with state := .fault } } = .grip
    ∧ Part.decision { onTheWay with diameter := { onTheWay.diameter with hold := true } } = .grip
    ∧ Part.decision { holding .process (stem .active .none []) with feed := feeding .grip none } = .seek
    ∧ Part.decision { holding .process (stem .active .none []) with feed := { feeding .grip none with seekSpent := true } } = .grip
    ∧ Part.decision { holding .fellProcess { stem .active .none [] with felled := false } with feed := feeding .grip none } = .grip
    ∧ (ready .process).decision = .idle := by decide +kernel

/-- The forward phase of a recovery, from a stall point in µm. -/
def recovering (stallPoint : Int) : Part :=
  let f := feeding (.recover .forward) (some (entry 0 .armed 4000))
  working plan 1000 { f with stallPoint := some stallPoint }

/-- A recovery succeeds at 200 mm beyond the stall point, and not one µm before. -/
theorem test_meets_DecisionTableRows_recovery :
    (recovering (-200000)).recoverySucceeds = true ∧ (recovering (-199999)).recoverySucceeds = false := by decide +kernel

theorem test_meets_KnifeOverrideRecomputesPressure :
    Settled (asked [[0x06, 1, 100]] onTheWay)
    ∧ (asked [[0x06, 1, 100]] onTheWay).offers 0x06 1 [100] []
    ∧ (asked [[0x06, 1, 101]] onTheWay).offers 0x06 1 [101] []
    ∧ (asked [[0x06, 1, 255]] (ready .off)).offers 0x06 1 [255] []
    ∧ (asked [[0x06, 1, 100]] onTheWay).knife.state = .clamped ∧ (ready .off).knife.state = .opened := by
  refine ⟨settled_ended _, ?_⟩
  unfold Part.offers Part.heads
  decide +kernel

/-- The rows of R146 with a record ACTIVE and with none; the clamping pressure at 200 mm is 35 + 10 × 200 / 100 = 55 %. -/
theorem test_meets_KnivesFollowTheirRules :
    Settled onTheWay ∧ onTheWay.powered = true
    ∧ (onTheWay.knife.state, onTheWay.knife.pressure) = (.clamped, some 55)
    ∧ (let p := working plan 1000 (feeding (.recover .back) none); (p.knife.state, p.knife.pressure)) = (.relief, some 27)
    ∧ (let p := working plan 1000 (feeding (.recover .forward) none); (p.knife.state, p.knife.pressure)) = (.boost, some 66)
    ∧ (let p := working plan 1000 Feed.reset; (p.knife.state, p.knife.pressure)) = (.opened, none)
    ∧ (ready .process).knife.state = .opened
    ∧ (ended { onTheWay with monitor := { onTheWay.monitor with takeover := .requested } }).knife.state = .yielded
    ∧ (ended { onTheWay with knife := { onTheWay.knife with override := some 95 } }).knife.pressure = some 90 :=
  ⟨settled_ended _, by decide +kernel⟩

/-- 07: at 452 mm the raw pressure 80.2 is limited to KNIFE_MAX, 80 %. -/
theorem test_knife_pressure_limited :
    (ended { onTheWay with diameter := { onTheWay.diameter with samples := [452] } }).knife.pressure = some 80 := by decide +kernel

theorem test_meets_copies_in_range : CopiesInRange onTheWay := by
  unfold CopiesInRange Copy.inRange
  decide +kernel

/-- Snooping is disabled, so that TAKEOVER is granted. -/
def unsnooped (t : Takeover) (bs : List Byte) : Part :=
  asked [bs] (setTo 38 0 { onTheWay with monitor := { onTheWay.monitor with takeover := t } })

theorem test_meets_TakeoverRequestBeginsAndEnds :
    Settled (unsnooped .none [0x07, 1, 0])
    ∧ (unsnooped .none [0x07, 1, 0]).granted 0x07 1 [0] [] ∧ (unsnooped .requested [0x07, 1, 0]).granted 0x07 1 [0] []
    ∧ (unsnooped .none [0x07, 1, 1]).granted 0x07 1 [1] [] ∧ (unsnooped .requested [0x07, 1, 1]).granted 0x07 1 [1] []
    ∧ (unsnooped .requested [0x07, 1, 1]).monitor.takeover.inForce = true := by
  refine ⟨settled_ended _, ?_⟩
  unfold Part.granted Part.offers Part.heads
  decide +kernel

theorem test_meets_CutNowAsksForACutAtOnce :
    Settled (asked [[0x08, 1]] onTheWay) ∧ (asked [[0x08, 1]] onTheWay).granted 0x08 1 [] []
    ∧ (asked [[0x08, 1]] onTheWay).feed.state.motion = true
    ∧ (asked [[0x08, 1]] (working plan 3990 (feeding .settle none))).granted 0x08 1 [] []
    ∧ (asked [[0x08, 1]] (working plan 3990 (feeding .stalled none))).granted 0x08 1 [] []
    ∧ (asked [[0x08, 1]] (working plan 3990 { feeding .cutWait none with request := .waiting .automatic })).granted 0x08 1 [] []
    ∧ onTheWay.pins.endOfStroke = false := by
  refine ⟨settled_ended _, ?_⟩
  unfold Part.granted Part.offers Part.heads
  decide +kernel

theorem test_meets_OpenStemCreatesARecord :
    Settled (asked [[0x10, 1, 0, 0]] onTheWay) ∧ (asked [[0x10, 1, 0, 0]] onTheWay).granted 0x10 1 [0, 0] []
    ∧ (asked [[0x10, 1, 0, 0]] onTheWay).freeSlot = some 1 := by
  refine ⟨settled_ended _, ?_⟩
  unfold Part.granted Part.offers Part.heads
  decide +kernel

/-- A stem OPEN, to be attached. -/
def waiting (state : RecordState) (bs : List Byte) : Part := asked [bs] (holding .process (stem state .none [entry 0 .pending 4000]))

theorem test_meets_AttachStemStartsAnActivePeriod :
    Settled (waiting .dropped [0x11, 1, 0, 0]) ∧ (waiting .dropped [0x11, 1, 0, 0]).granted 0x11 1 [0, 0] []
    ∧ (waiting .dropped [0x11, 1, 0, 0]).lookup (readStem [0, 0]) = some 0
    ∧ ((waiting .dropped [0x11, 1, 0, 0]).recordAt 0).isSome = true := by
  refine ⟨settled_ended _, ?_⟩
  unfold Part.granted Part.offers Part.heads
  decide +kernel

theorem test_meets_FinishStemEndsProcessing :
    Settled (asked [[0x12, 1, 0, 0]] onTheWay) ∧ (asked [[0x12, 1, 0, 0]] onTheWay).granted 0x12 1 [0, 0] []
    ∧ (asked [[0x12, 1, 0, 0]] onTheWay).isActive 0 = true
    ∧ (waiting .dropped [0x12, 1, 0, 0]).granted 0x12 1 [0, 0] []
    ∧ ((waiting .dropped [0x12, 1, 0, 0]).recordAt 0).map (·.state) = some .dropped := by
  refine ⟨settled_ended _, ?_⟩
  unfold Part.granted Part.offers Part.heads
  decide +kernel

theorem test_meets_RetireStemFreesTheSlot :
    Settled (waiting .opened [0x13, 1, 0, 0]) ∧ (waiting .opened [0x13, 1, 0, 0]).granted 0x13 1 [0, 0] []
    ∧ (waiting .opened [0x13, 1, 0, 0]).lookup (readStem [0, 0]) = some 0
    ∧ ∃ q, Runs .retireStem (alone (waiting .opened [0x13, 1, 0, 0])) q := by
  refine ⟨settled_ended _, ?_, by decide +kernel, _, rfl⟩
  unfold Part.granted Part.offers Part.heads
  decide +kernel

/-- A generation of 255 wraps to 0. -/
theorem test_generation_wraps :
    (let p := waiting .opened [0x13, 1, 0, 255]
      let q : Part := { p with table := { p.table with slots := p.table.slots.set 0 { p.table.slots[0] with generation := 255 } } }
      (after .retireStem q).table.slots[0].generation) = 0 := by decide +kernel

/-! ### Cut lists -/

/-- The planned fields 2,500 mm, 40, 30, none, 7 as bytes. -/
def fields : List Byte := [0xC4, 0x09, 0, 0, 40, 30, 0xFF, 0xFF, 7]

/-- An amendment of slot 0 at revision 4. -/
def amend (code : Byte) (operands : List Byte) : List Byte := [code, 1, 0, 0, 4, 0] ++ operands

theorem test_meets_AppendEntryJoinsTheEnd :
    Settled (asked [amend 0x18 fields] onTheWay)
    ∧ (asked [amend 0x18 fields] onTheWay).granted 0x18 1 ([0, 0, 4, 0] ++ fields) [] ∧ (stem .active .cut plan).mayArm = false
    ∧ (asked [amend 0x18 fields] (working [] 0 (feeding .grip none))).granted 0x18 1 ([0, 0, 4, 0] ++ fields) []
    ∧ (stem .active .cut []).mayArm = true := by
  refine ⟨settled_ended _, ?_⟩
  unfold Part.granted Part.offers Part.heads
  decide +kernel

theorem test_meets_InsertEntryTakesTheIndex :
    Settled (asked [amend 0x19 (2 :: fields)] onTheWay)
    ∧ (asked [amend 0x19 (2 :: fields)] onTheWay).granted 0x19 1 ([0, 0, 4, 0, 2] ++ fields) []
    ∧ (stem .active .cut plan).namesArmed 2 = false ∧ (stem .active .cut plan).mayArm = false
    ∧ (asked [amend 0x19 (0 :: fields)] onTheWay).granted 0x19 1 ([0, 0, 4, 0, 0] ++ fields) []
    ∧ (stem .active .cut plan).namesArmed 0 = true
    ∧ (asked [amend 0x19 (0 :: fields)] (working [] 0 (feeding .grip none))).granted 0x19 1 ([0, 0, 4, 0, 0] ++ fields) []
    ∧ (stem .active .cut []).namesArmed 0 = false ∧ (stem .active .cut []).mayArm = true := by
  refine ⟨settled_ended _, ?_⟩
  unfold Part.granted Part.offers Part.heads
  decide +kernel

theorem test_meets_ChangeEntryReplacesPlannedFields :
    Settled (asked [amend 0x1A (0 :: fields)] onTheWay)
    ∧ (asked [amend 0x1A (0 :: fields)] onTheWay).granted 0x1A 1 ([0, 0, 4, 0, 0] ++ fields) []
    ∧ plan[0]?.map (·.state) = some .armed
    ∧ (asked [amend 0x1A (1 :: fields)] onTheWay).granted 0x1A 1 ([0, 0, 4, 0, 1] ++ fields) []
    ∧ plan[1]?.map (·.state) = some .pending := by
  refine ⟨settled_ended _, ?_⟩
  unfold Part.granted Part.offers Part.heads
  decide +kernel

theorem test_meets_CancelEntryRemovesTheEntry :
    Settled (asked [amend 0x1B [0]] onTheWay)
    ∧ (asked [amend 0x1B [1]] onTheWay).granted 0x1B 1 [0, 0, 4, 0, 1] []
    ∧ (asked [amend 0x1B [0]] onTheWay).granted 0x1B 1 [0, 0, 4, 0, 0] []
    ∧ (stem .active .cut (plan.eraseIdx 0)).mayArm = true ∧ armFirst (plan.eraseIdx 0) = some (entry 1 .armed 3000, [entry 1 .armed 3000])
    ∧ Record.mayArm { stem .active .cut (plan.eraseIdx 0) with topSeen := true } = false
    ∧ (asked [amend 0x1B [0]] (working [entry 0 .armed 4000] 1000 (feeding .feed (some (entry 0 .armed 4000))))).granted
        0x1B 1 [0, 0, 4, 0, 0] []
    ∧ (stem .active .cut []).mayArm = true ∧ armFirst [] = none
    ∧ onTheWay.setting 6 = 0 ∧ (setTo 6 1 onTheWay).setting 6 = 1
    ∧ (after .cancelEntry (asked [amend 0x1B [0]] (setTo 6 1 (working [entry 0 .armed 4000] 1000 (feeding .grip none))))).raised
        .filler = true := by
  refine ⟨settled_ended _, ?_⟩
  unfold Part.granted Part.offers Part.heads
  decide +kernel

/-- A feed that an amendment of the ARMED entry meets: at 1,000 mm, from a stall point. -/
def amended (c : Instr) (bs : List Byte) (f : FeedState) (stallPoint : Option Int) (es : List Entry) : Part :=
  after c (asked [bs] (working es 1000 { feeding f (some (entry 0 .armed 4000)) with stallPoint, attempts := 2 }))

/-- What an amendment leaves of the feed: its state, the recovery attempts, the target held. -/
def fedOn (p : Part) : FeedState × Nat × Option Int := (p.feed.state, p.feed.attempts, p.feed.held.map (·.target))

/-- 05 R116: CHANGE and CANCEL of the ARMED entry in FEED place the entry, a recovery under way goes on with it, one that has
succeeded places it, and without an entry the feed decides afresh. -/
theorem test_meets_amendments_fed :
    (let change := amend 0x1A (0 :: fields);
      [fedOn (amended .changeEntry change .feed none plan),
        fedOn (amended .changeEntry change (.recover .back) (some 1000000) plan),
        fedOn (amended .changeEntry change (.recover .forward) (some 0) plan),
        fedOn (amended .changeEntry (amend 0x1A [0, 0x14, 0x05, 0, 0, 40, 30, 0xFF, 0xFF, 7]) (.recover .forward) (some (-200000)) plan)])
      = [(.feed, 2, some 2500), (.recover .back, 2, some 2500), (.recover .forward, 2, some 2500),
          (.approach, 0, some 1300)]
    ∧ (let cancel := amend 0x1B [0];
      [fedOn (amended .cancelEntry cancel .feed none plan), fedOn (amended .cancelEntry cancel (.recover .back) (some 1000000) plan),
        fedOn (amended .cancelEntry cancel (.recover .back) (some 1000000) [entry 0 .armed 4000]),
        fedOn (amended .cancelEntry cancel .feed none [entry 0 .armed 4000])])
      = [(.feed, 2, some 3000), (.recover .back, 2, some 3000), (.grip, 0, none), (.grip, 0, none)] := by decide +kernel

/-- At T − APPROACH_DIST the amendment is too late, one millimetre before it is taken. -/
theorem test_meets_LatenessTestByFeedState :
    (working plan 3600 (feeding .feed (some (entry 0 .armed 4000)))).tooLate (some 4000) = true
    ∧ (working plan 3599 (feeding .feed (some (entry 0 .armed 4000)))).tooLate (some 4000) = false
    ∧ (working plan 3599 (feeding .feed (some (entry 0 .armed 4000)))).logMm = some 3599
    ∧ (working plan 3599 (feeding .approach (some (entry 0 .armed 4000)))).tooLate none = true
    ∧ (working plan 3599 (feeding .grip (some (entry 0 .armed 4000)))).tooLate (some 200) = false := by decide +kernel

/-! ### Species, settings, the stored copy, RESET -/

/-- The thirteen built-in values of a species as bytes. -/
def speciesBytes : List Byte := speciesImage (Species.builtIn true)

theorem test_meets_SpeciesRecordsAreWrittenAndCleared :
    Settled (asked [[0x21, 1, 31] ++ speciesBytes] onTheWay)
    ∧ (asked [[0x21, 1, 31] ++ speciesBytes] onTheWay).granted 0x21 1 (31 :: speciesBytes) []
    ∧ (asked [[0x22, 1, 31]] onTheWay).granted 0x22 1 [31] []
    ∧ readSpeciesImage speciesBytes 0 = Species.builtIn (readSpeciesImage speciesBytes 0).valid := by
  refine ⟨settled_ended _, ?_⟩
  unfold Part.granted Part.offers Part.heads
  decide +kernel

/-- A correction of the source in force that changes marks the log MIXED. -/
theorem test_meets_SpeciesRecordsAreWrittenAndCleared_mark :
    (after .writeSpecies (asked [[0x21, 1, 0] ++ speciesImage { Species.builtIn true with rollerCorr := 5 }] onTheWay)
      ).length.history.map (·.mark) = some .mixed
    ∧ onTheWay.length.history.map (·.mark) = some .roller := by decide +kernel

/-- A head whose stem has one DONE log. -/
def logged : Part :=
  working [{ entry 0 .done 4000 with results := some (results (some 4312) (some 292)) }] 10 (feeding .grip none)

/-- CALIBRATE of entry 0: true length 4,290 mm, true diameter 306 mm. -/
def truths : List Byte := [0, 0, 0, 0xC2, 0x10, 0, 0, 0x32, 0x01]

theorem test_meets_CalibrateDerivesCorrections :
    Settled (asked [[0x23, 1] ++ truths] logged) ∧ (asked [[0x23, 1] ++ truths] logged).granted 0x23 1 truths []
    ∧ readOptI32 truths 3 = some 4290 ∧ readOptU16 truths 7 = some 306 := by
  refine ⟨settled_ended _, ?_⟩
  unfold Part.granted Part.offers Part.heads
  decide +kernel

/-- The worked calibration: 306 − (292 + 8) = 6 mm is added to DIAM_OFFSET, WHEEL_CORR becomes −5,102. -/
theorem test_calibrate :
    (let sp := (after .calibrate (asked [[0x23, 1] ++ truths] logged)).species 0; (sp.wheelCorr, sp.diamOffset)) = (-5102, 6) := by
  decide +kernel

/-- So does the correction that CALIBRATE derives, with the wheel selected. -/
theorem test_meets_CalibrateDerivesCorrections_mark :
    (after .calibrate (asked [[0x23, 1] ++ truths] (setTo 3 0 logged))).length.history.map (·.mark) = some .mixed
    ∧ (after .calibrate (asked [[0x23, 1] ++ truths] logged)).length.history = logged.length.history := by decide +kernel

theorem test_meets_WriteSettingTakesTheValue :
    Settled (asked [[0x29, 1, 18, 0, 0]] onTheWay) ∧ (asked [[0x29, 1, 18, 0, 0]] onTheWay).granted 0x29 1 [18, 0, 0] []
    ∧ (asked [[0x29, 1, 9, 40, 0]] onTheWay).granted 0x29 1 [9, 40, 0] [] ∧ onTheWay.setting 9 = 40
    ∧ (asked [[0x29, 1, 21, 101, 0]] onTheWay).granted 0x29 1 [21, 101, 0] []
    ∧ (asked [[0x29, 1, 38, 0, 0]] onTheWay).granted 0x29 1 [38, 0, 0] [] := by
  refine ⟨settled_ended _, ?_⟩
  unfold Part.granted Part.offers Part.heads
  decide +kernel

/-- Timers that have run the value written. -/
theorem test_meets_WriteSettingTakesTheValue_timers :
    (asked [[0x29, 1, 35, 20, 0]] (ended { onTheWay with link := { onTheWay.link with refresh := some 20 } })).granted
        0x29 1 [35, 20, 0] []
    ∧ (asked [[0x29, 1, 15, 0xE8, 3]] (cutting (sawing .advancing (some (cycle 1 none))) (.placed (results none none)) [])).granted
        0x29 1 [15, 0xE8, 3] []
    ∧ (asked [[0x29, 1, 16, 0xF4, 1]] (ended { onTheWay with saw := sawing .returning (some (cycle 1 none)) })).granted
        0x29 1 [16, 0xF4, 1] []
    ∧ (asked [[0x29, 1, 39, 0xC8, 0]] (ended { onTheWay with monitor := { onTheWay.monitor with takeover := .snooped 200 } })).granted
        0x29 1 [39, 0xC8, 0] [] := by
  unfold Part.granted Part.offers Part.heads
  decide +kernel

/-- ROLLER_PITCH in force changes and marks the log; RETURN_TIME_LIMIT and CUT_TIME_LIMIT, lowered to what their timers have run,
act as the expiry does. -/
theorem test_meets_WriteSettingTakesTheValue_acts :
    (after .writeSetting (asked [[0x29, 1, 2, 0x59, 2]] onTheWay)).length.history.map (·.mark) = some .mixed
    ∧ (let p := ended { onTheWay with saw := { sawing .returning (some (cycle 1 none)) with returnTimer := some 900 } };
        (after .writeSetting (asked [[0x29, 1, 16, 0xF4, 1]] p)).raised .sawJam) = true
    ∧ (let p := cutting { sawing .advancing (some (cycle 2 none)) with cutTimer := some 1000 } (.placed (results none none)) [];
        let q := after .writeSetting (asked [[0x29, 1, 15, 0xE8, 3]] p);
        (q.saw.state, q.raised .sawTimeout)) = (.returning, true)
    ∧ (let p := cutting { sawing .advancing (some (cycle 2 none)) with cutTimer := some 999 } (.placed (results none none)) [];
        (after .writeSetting (asked [[0x29, 1, 15, 0xE8, 3]] p)).saw.state) = .advancing := by decide +kernel

/-- The part with a store in flight. -/
def storing : Part := ended { ready .off with store := { (ready .off).store with inFlight := some 0 } }

theorem test_meets_StoreIsTakenAndCompletes :
    Settled (asked [[0x2A, 1]] (ready .off)) ∧ Settled storing ∧ (asked [[0x2A, 1]] (ready .off)).granted 0x2A 1 [] []
    ∧ storing.powered = true ∧ storing.store.inFlight ≠ none ∧ (ready .off).store.inFlight = none := by
  refine ⟨settled_ended _, settled_ended _, ?_⟩
  unfold Part.granted Part.offers Part.heads
  decide +kernel

/-- A RESET taken, its answer the only frame. -/
def resetting : Part := after .reset (asked [[0x30, 1, 0]] (ready .off))

theorem test_meets_ResetTakesEffectAfterItsAnswer :
    Settled (asked [[0x30, 1, 1]] (ready .off)) ∧ (asked [[0x30, 1, 1]] (ready .off)).granted 0x30 1 [1] []
    ∧ (asked [[0x30, 1, 0]] (offBus (ready .off))).granted 0x30 1 [0] []
    ∧ resetting.boot.resetPending = some .normal ∧ resetting.link.valve = none
    ∧ resetting.link.sendList = [.answer (okAnswer 0x30 1 [0])] := by
  refine ⟨settled_ended _, ?_⟩
  unfold Part.granted Part.offers Part.heads
  decide +kernel

/-! ### The link -/

/-- The part with a valve command frame of an identifier waiting beside an answer. -/
def sending (id : BusId) : Part :=
  ended { ready .off with link := { (ready .off).link with
    valve := some { id, data := releaseData }, sendList := [.answer (okAnswer 0x01 1 [])] } }

theorem test_meets_FrameTransmittedSendsTheLowerIdentifier :
    Settled (sending 0x5AF) ∧ (sending 0x5AF).powered = true ∧ (sending 0x5AF).boot.resetPending = none
    ∧ (sending 0x5AF).link.valve = some { id := 0x5AF, data := releaseData }
    ∧ ((SendItem.answer (okAnswer 0x01 1 [])).frame (sending 0x5B0).link.node).id = 0x5B0
    ∧ ((sending 0x5B0).link.valve.map (·.id), (sending 0x5B1).link.valve.map (·.id)) = (some 0x5B0, some 0x5B1)
    ∧ (ready .off).link.valve = none ∧ (ready .off).link.sendList = [] :=
  ⟨settled_ended _, by decide +kernel⟩

theorem test_meets_TransmitErrorLeadsToBusOff :
    Settled (ended { onTheWay with link := { onTheWay.link with errors := 248 } }) ∧ Settled (offBus onTheWay)
    ∧ (ended { onTheWay with link := { onTheWay.link with errors := 248 } }).link.errors = 248 ∧ onTheWay.boot.resetPending = none
    ∧ onTheWay.link.errors + 8 ≤ 255 ∧ onTheWay.feed.cutTaken = false ∧ (feeding .cutWait none).cutTaken = true
    ∧ (offBus onTheWay).link.busOff = true :=
  ⟨settled_ended _, settled_ended _, by decide +kernel⟩

/-- The entry into bus-off discards the RESET's answer, and the reset takes effect. -/
theorem test_meets_TransmitErrorLeadsToBusOff_reset :
    (let p := ended { resetting with link := { resetting.link with errors := 248 } };
      (p.link.busOff, p.boot.resetPending, (after .transmitError p).boot.resetPending, (after .transmitError p).link.busOff))
      = (false, some .normal, none, false) := by decide +kernel

theorem test_meets_BusOffRecoverySendsTheImage :
    Settled (offBus onTheWay) ∧ (offBus onTheWay).powered = true ∧ (offBus onTheWay).link.busOff = true
    ∧ onTheWay.link.busOff = false := ⟨settled_ended _, by decide +kernel⟩

theorem test_meets_ValveFramesOnRefreshAndOnChange :
    Settled (ended { onTheWay with link := { onTheWay.link with refresh := some 50 } })
    ∧ (ended { onTheWay with link := { onTheWay.link with refresh := some 50 } }).link.refresh ≠ none ∧ onTheWay.sendsValve = true
    ∧ (ready .off).sendsValve = false
    ∧ (after .barLeavesHome onTheWay).link.image ≠ onTheWay.link.image := ⟨settled_ended _, by decide +kernel⟩

/-- A stick frame with the low four bits of a byte. -/
def stickFrame (b : Byte) : BusFrame := { id := 0x2B0, remote := false, data := [b] }

theorem test_meets_StickFrameIsDecoded :
    Settled onTheWay ∧ onTheWay.powered = true ∧ onTheWay.setting 38 = 1 ∧ onTheWay.stickId = 0x2B0
    ∧ onTheWay.link.busOff = false ∧ onTheWay.monitor.takeover = .none
    ∧ (readStick 8).active = true ∧ (readStick 0xF0).active = false :=
  ⟨settled_ended _, by decide +kernel⟩

theorem test_meets_TakeoverAndExpectationRunOut :
    Settled (after (.stickFrame (stickFrame 8)) onTheWay) ∧ (after (.stickFrame (stickFrame 8)) onTheWay).powered = true
    ∧ (after (.stickFrame (stickFrame 8)) onTheWay).monitor.takeover = .snooped 0
    ∧ (after (.stickFrame (stickFrame 8)) onTheWay).saw.expectation = some 0 ∧ onTheWay.monitor.takeover = .none := by
  refine ⟨?_, by decide +kernel⟩
  exact conclude_settled _ _

/-! ### Encoders, switches, lines -/

/-- A valid wheel and a slip window with the sums given. -/
def slipping (wheel roller : Int) : Part :=
  ended { onTheWay with length := { onTheWay.length with contact := .seated, slip := some { wheel, roller } } }

theorem test_meets_CountsMoveTheSums :
    Settled onTheWay ∧ MotionGuarded onTheWay ∧ onTheWay.powered = true ∧ onTheWay.source = .roller
    ∧ MotionGuarded (slipping 0 0) ∧ (slipping 0 0).source = .wheel ∧ (setTo 3 0 onTheWay).source = .wheel
    ∧ onTheWay.length.endPending = none ∧ onTheWay.length.contact = .lifted
    ∧ (after (.wheelContactSwitch true) onTheWay).length.contact = .seating 0 := by
  refine ⟨settled_ended _, ?_⟩
  unfold MotionGuarded
  decide +kernel

/-- A feed with the 4,000 mm entry held, at a position in µm. -/
def moving (f : Feed) (pos : Int) : Part :=
  let p := working plan 0 { f with held := some (entry 0 .armed 4000).heldEntry }
  ended { p with length := { p.length with logPos := some pos } }

/-- Where a roller count of 600 µm leaves a feed. -/
def moved (forward : Bool) (f : Feed) (pos : Int) : FeedState := (after (.rollerCount forward) (moving f pos)).feed.state

/-- FEED and APPROACH at T − APPROACH_DIST and T − STOP_LEAD, a correction at T, a recovery at RECOVERY_BACK and at 200 mm beyond the
stall point, a seek at SEEK_LIMIT: at the comparison and 1 µm short of it. -/
theorem test_meets_CountsMoveTheSums_feed :
    (moved true (feeding .feed none) 3599399, moved true (feeding .feed none) 3599400) = (.feed, .approach)
    ∧ (moved true (feeding .feed none) 3959399, moved true (feeding .approach none) 3959400) = (.approach, .settle)
    ∧ (moved true (feeding (.correct .forward) none) 3999399, moved true (feeding (.correct .forward) none) 3999400)
        = (.correct .forward, .settle)
    ∧ (moved false (feeding (.correct .reverse) none) 4001600, moved false (feeding (.correct .reverse) none) 4001599)
        = (.correct .reverse, .settle)
    ∧ (moved false { feeding (.recover .back) none with stallPoint := some 299399 } 1000000,
        moved false { feeding (.recover .back) none with stallPoint := some 299400 } 1000000)
        = (.recover .back, .recover .forward)
    ∧ (moved true { feeding (.recover .forward) none with stallPoint := some (-199399) } 1000000,
        moved true { feeding (.recover .forward) none with stallPoint := some (-199400) } 1000000) = (.recover .forward, .feed)
    ∧ (let seeking (x : Int) : Part := ended { holding .process (stem .active .none []) with
          feed := { feeding .seek none with seekStart := some x } };
        ((after (.rollerCount false) (seeking 2999399)).raised .noEnd, (after (.rollerCount false) (seeking 2999400)).raised .noEnd))
        = (false, true) := by decide +kernel

/-- A count at the end of the log position's range does not move it, and is compared with no target; a count that moves it is (05
R100). -/
theorem test_meets_CountsMoveTheSums_unmoved :
    (let low (t pos : Int) : Part := let p := moving (feeding .feed none) pos;
          ended { p with feed := { p.feed with held := some { ident := 0, target := t, minus := 40, plus := 30 } } };
        let q (t pos : Int) := after (.rollerCount false) (low t pos);
        ((low (-700) (-1000000)).movedPos (-600), (q (-700) (-1000000)).length.logPos, (q (-700) (-1000000)).feed.state,
          (q (-700) (-999999)).length.logPos, (q (-700) (-999999)).feed.state))
      = (some (-1000000), some (-1000000), .feed, some (-1000000), .approach) := by decide +kernel

/-- What a wheel count of 400 µm leaves of it: SLIP, WHEEL_SUSPECT, the window. -/
def slipped (wheel roller : Int) : Bool × Bool × Option SlipWindow :=
  let q := after (.wheelCount true) (slipping wheel roller)
  (q.raised .slip, q.raised .wheelSuspect, q.length.slip)

/-- The window closes at 500 mm; SLIP_TOL of 20 per mille of it is 10 mm, either way. -/
theorem test_meets_CountsMoveTheSums_slip :
    slipped 499599 600000 = (false, false, some { wheel := 499999, roller := 600000 })
    ∧ slipped 499600 510001 = (true, false, some { wheel := 0, roller := 0 })
    ∧ slipped 499600 510000 = (false, false, some { wheel := 0, roller := 0 })
    ∧ slipped 499600 490000 = (false, false, some { wheel := 0, roller := 0 })
    ∧ slipped 499600 489999 = (false, true, none) ∧ (slipping 0 0).source = .wheel
    ∧ (after (.rollerCount true) (slipping 0 0)).length.slip = some { wheel := 0, roller := 600 } := by decide +kernel

/-- A feed on its way that a count meets at an edge of each watch. -/
def watched (distance : Nat) (pos : Int) (least : Option Nat) : Part :=
  ended { moving (feeding .feed none) pos with diameter := { onTheWay.diameter with
    distance := some distance, samples := [300], entry := some least
    mid := { target := some 4000, capture := none, crossed := false } } }

/-- The sample at DIAMETER_INTERVAL, the crossing of half the target, the hold of a sample below the minimum, in FEED and in the
count that reaches SETTLE. -/
theorem test_meets_CountsMoveTheSums_diameter :
    ((after (.rollerCount true) (watched 19399 1000000 none)).diameter.samples,
      (after (.rollerCount true) (watched 19400 1000000 none)).diameter.samples) = ([300], [300, 292])
    ∧ ((after (.rollerCount true) (watched 0 1999399 none)).diameter.mid.capture,
      (after (.rollerCount true) (watched 0 1999400 none)).diameter.mid.capture) = (none, some 300)
    ∧ (let q := after (.rollerCount true) (watched 19400 1000000 (some 297)); (q.diameter.hold, q.raised .diamReject, q.feed.state))
        = (true, true, .grip)
    ∧ (after (.rollerCount true) (watched 19400 1000000 (some 296))).diameter.hold = false
    ∧ (watched 19400 3959400 (some 297)).diameter.hold = false ∧ (watched 19400 3959400 (some 297)).movedMm 600 = some 3960
    ∧ (takeSample (watched 19400 3959400 (some 297))).thin = true := by decide +kernel

/-- A stem at rest, a creep interval begun at a counter value. -/
def creeping (start : Int) : Part :=
  let p := working plan 1000 { feeding .grip none with value := .grip }
  ended { p with length := { p.length with creep := some { start, found := false } } }

/-- Creep past 30 mm; an end-sensor change at 5 mm; the guidance at the lower tolerance. -/
theorem test_meets_CountsMoveTheSums_watches :
    ((after (.rollerCount true) (creeping (-29400))).raised .creep, (after (.rollerCount true) (creeping (-29401))).raised .creep)
        = (false, true)
    ∧ (let pending (x : Int) : Part := { onTheWay with length := { onTheWay.length with endPending := some x } };
        ((pending (-4399)).qualifies 600, (pending (-4400)).qualifies 600)) = (false, true)
    ∧ (let near (x : Int) : Part := let p := guided .measureOnly 0; ended { p with length := { p.length with logPos := some x } };
        ((after (.rollerCount true) (near 3959399)).monitor.guidance.announced,
          (after (.rollerCount true) (near 3959400)).monitor.guidance.announced)) = (false, true) := by decide +kernel

/-- A stem at rest in MEASURE_ONLY, 1 mm short of the window, creep about to be found, and 14 frames waiting: every notice of the
count finds its place. -/
def lastPlaces : Part :=
  let p := guided .measureOnly 0
  ended { p with
    length := { p.length with
      logPos := some 3959400, creep := some { start := p.length.head - 29401, found := false }, roller := { acc := 0, rem := 0 } }
    link := { p.link with sendList := List.replicate 14 (.notice (.storeDone true)) } }

theorem test_meets_CountsMoveTheSums_guidance :
    Settled lastPlaces ∧ MotionGuarded lastPlaces ∧ lastPlaces.powered = true ∧ lastPlaces.source = .roller
    ∧ (after (.rollerCount true) lastPlaces).link.sendList.drop 14
        = [.notice (.condition 4 4), .notice (.atTarget { slot := 0, generation := 0 } 0 4 4000 40 30 3960)] := by
  refine ⟨settled_ended _, ?_⟩
  unfold MotionGuarded
  decide +kernel

/-- The end sensor covered, a change noted. -/
def endNoted (noted : Int) (p : Part) : Part :=
  { p with length := { p.length with endCovered := true, endPending := some noted } }

theorem test_meets_EndSensorReferencesAndReportsTheTop :
    (endNoted 5000 { holding .process (stem .active .none []) with feed := feeding .seek none }).activeSlot = some 0
    ∧ (endNoted 5000 (holding .process (stem .active .none []))).length.head ≤ 5000 - 5000
    ∧ (holding .process (stem .active .none [])).length.mirror = false
    ∧ (endNoted (-5000) onTheWay).length.head = -5000 + 5000 ∧ (endNoted (-5000) onTheWay).logMm = some 1000
    ∧ (stem .active .cut plan).armed.map (·.plan.target) = some 4000 ∧ onTheWay.endOffset = 250
    ∧ (endNoted (-4999) onTheWay).length.head < -4999 + 5000 := by decide +kernel

/-- The level is covered again before 5 mm: the pending change is discarded. -/
theorem test_end_sensor_discards :
    (after (.endSensorChange false) (after (.endSensorChange true) onTheWay)).length.endPending = none := by decide +kernel

theorem test_meets_SensorLevelsAreTaken :
    Settled onTheWay ∧ onTheWay.powered = true ∧ onTheWay.pins.wheelClosed = false ∧ onTheWay.pins.endCovered = false
    ∧ (onTheWay.line .rl).state = .ok ∧ ((setTo 18 0 State.reset.part).line .ka).state = .qualifying :=
  ⟨settled_ended _, by decide +kernel⟩

/-- A reading of 99 is below LINE_LOW, 100 is in the window. -/
theorem test_meets_LineExpiriesChangeTheLine :
    Settled onTheWay ∧ onTheWay.powered = true
    ∧ (after (.armLineReading .ka 99) onTheWay).outOfWindow .ka = some .shorted
    ∧ ((after (.armLineReading .ka 99) onTheWay).line .ka).state = .ok
    ∧ (after (.armLineReading .ka 100) onTheWay).outOfWindow .ka = none
    ∧ (after (.armLineReading .ka 3996) onTheWay).outOfWindow .ka = some .opened
    ∧ ((ended State.reset.part).line .ka).state = .qualifying ∧ (ended State.reset.part).outOfWindow .ka = none
    ∧ ((after (.lineOutOfWindowExpiry .ka) (after (.armLineReading .ka 99) onTheWay)).line .ka).state = .fault .shorted :=
  ⟨settled_ended _, by decide +kernel⟩

/-- A part that is not READY, KA QUALIFYING and the lines named beside it, the others OK. -/
def qualifies (others : List Line) : Part :=
  let state (l : Line) : LineUnit := { state := if l = .ka ∨ l ∈ others then .qualifying else .ok, run := some 200, lastOut := none }
  ended { State.reset.part with
    pins := { State.reset.part.pins with readings := Vector.replicate 3 1500 }
    diameter := { State.reset.part.diameter with lines := #v[state .ka, state .kb, state .rl] } }

/-- A part that is not READY with two lines not OK stays not READY when one of them is, READY when it was the last. -/
theorem test_meets_LineExpiriesChangeTheLine_ready :
    ((qualifies [.kb]).boot.ready, (after (.lineInWindowExpiry .ka) (qualifies [.kb])).boot.ready,
      (after (.lineInWindowExpiry .ka) (qualifies [])).boot.ready) = (false, false, true) := by decide +kernel

/-- All lines usable, one knife line, none; four samples and one more. -/
theorem test_meets_SamplesCombineUsableLines :
    onTheWay.inUse.isSome = true ∧ onTheWay.usable .ka = true ∧ onTheWay.usable .kb = true ∧ onTheWay.usable .rl = true
    ∧ (after (.armLineReading .kb 0) onTheWay).usable .kb = false
    ∧ (takeSample onTheWay).diameter.samples = [200, 292]
    ∧ (ready .process).currentDiameter = none ∧ onTheWay.currentDiameter = some 200 := by decide +kernel

/-- A stem attached and not yet sampled. -/
def gripped : Part :=
  ended { holding .process (stem .active .none []) with
    diameter := { (holding .process (stem .active .none [])).diameter with gripWait := some 200 } }

theorem test_meets_GripSampleIsTakenOnce :
    Settled gripped ∧ gripped.powered = true ∧ gripped.diameter.gripWait ≠ none ∧ gripped.hasActive = true
    ∧ gripped.diameter.samples = [] ∧ onTheWay.diameter.gripWait = none ∧ (after .gripSampleExpiry gripped).diameter.samples = [292] :=
  ⟨settled_ended _, by decide +kernel⟩

/-- A grip sample of 292 mm below a minimum of 293 mm takes a feed in FEED into the hold. -/
theorem test_meets_GripSampleIsTakenOnce_hold :
    (let p := ended { onTheWay with diameter := { onTheWay.diameter with
        gripWait := some 200, samples := [], entry := some (some 293) } };
      let q := after .gripSampleExpiry p;
      (p.feed.state, p.diameter.hold, q.thin, q.diameter.hold, q.raised .diamReject, q.feed.state))
      = (.feed, false, true, true, true, .grip) := by decide +kernel

/-- The wheel raised from the stem changes the source back to the roller. -/
theorem test_meets_SensorLevelsAreTaken_mark :
    (let p := ended { slipping 0 0 with pins := { onTheWay.pins with wheelClosed := true } };
      (p.source, (after (.wheelContactSwitch false) p).length.history.map (·.mark))) = (.wheel, some .mixed) := by decide +kernel

/-- The roller arm's line reads a stem of 20 mm: the stem is gone, the drop timer runs. -/
def gone : Part := after (.armLineReading .rl 100) onTheWay

/-- The part after a step on an empty queue. -/
def stepped (p : Part) : Part :=
  match step (alone p) with
  | .next s => s.part
  | _ => p

/-- One millisecond: a running timer is one more, one that does not run does not start; a request of one byte is bad. -/
theorem test_meets_EmptyQueueStep_time :
    (gone.own, gone.diameter.dropTimer, (stepped gone).diameter.dropTimer, gone.saw.cutTimer, (stepped gone).saw.cutTimer)
      = (none, some 0, some 1, none, none)
    ∧ (asked [[7]] onTheWay).own = some .badRequest := by decide +kernel

theorem test_meets_DropTimerDropsTheStem :
    Settled gone ∧ gone.powered = true ∧ gone.diameter.dropTimer ≠ none ∧ gone.activeSlot = some 0
    ∧ gone.boot.resetPending = none ∧ onTheWay.diameter.dropTimer = none ∧ gone.link.busOff = false
    ∧ (ended { gone with link := { gone.link with conditions := Condition.drop.word } }).raised .drop = true
    ∧ gone.raised .drop = false := by
  refine ⟨?_, by decide +kernel⟩
  exact conclude_settled _ _

/-- A drop that clears the suspicion of a seated wheel changes the source, and marks the carry. -/
theorem test_meets_DropTimerDropsTheStem_mark :
    (let p := ended { gone with length := { gone.length with
        contact := .seated, suspect := true
        carry := some { pos := 0, log := { mark := .roller, slip := false, creep := false, raw := 0 } } } };
      (p.source, (after .dropTimerExpiry p).source, (after .dropTimerExpiry p).length.carry.map (·.log.mark)))
      = (.roller, .wheel, some .mixed) := by decide +kernel

/-! ### Feed and saw -/

/-- A settle at a position, with the entry of 4,000 −40 +30 mm held. -/
def settling (pos : Int) : Part := working plan pos (feeding .settle (some (entry 0 .armed 4000)))

/-- Both ends of the window cut; one millimetre outside either end corrects; past two corrections it cuts as it lies. -/
theorem test_meets_SettleEndsInCutOrCorrection :
    Settled (settling 3960) ∧ MotionGuarded (settling 3960) ∧ (settling 3960).powered = true ∧ (settling 3960).feed.settle ≠ none
    ∧ ((settling 3960).logMm, (settling 4030).logMm, (settling 3959).logMm, (settling 4031).logMm)
        = (some 3960, some 4030, some 3959, some 4031)
    ∧ (after .settleTimerExpiry (settling 3960)).saw.state = .advancing
    ∧ (after .settleTimerExpiry (settling 3959)).feed.state = .correct .forward
    ∧ (after .settleTimerExpiry (settling 4031)).feed.state = .correct .reverse
    ∧ (working plan 3990 (feeding .settle none)).feed.held = none ∧ onTheWay.feed.settle = none := by
  refine ⟨settled_ended _, ?_, by decide +kernel⟩
  unfold MotionGuarded
  decide +kernel

/-- A stall at a feed state, after attempts. -/
def stalling (state : FeedState) (attempts : Nat) : Part :=
  working plan 1000 { feeding state (some (entry 0 .armed 4000)) with attempts, stallPoint := if state = .recover .back then some 0 else none }

/-- RECOVERY_ATTEMPTS is 3: the third stall recovers, the fourth is a stall-out. -/
theorem test_meets_StallOutcomeByState :
    Settled (stalling .feed 2) ∧ (stalling .feed 2).powered = true ∧ (stalling .feed 2).feed.watch ≠ none
    ∧ (stalling .feed 2).setting 13 = 3
    ∧ (after .stallTimerExpiry (stalling .feed 2)).feed.state = .recover .back
    ∧ (after .stallTimerExpiry (stalling .feed 3)).feed.state = .stalled
    ∧ (stalling (.recover .back) 1).recoverySucceeds = false
    ∧ (ended { stalling (.recover .back) 1 with feed := { (stalling (.recover .back) 1).feed with stallPoint := some (-200000) }
          }).recoverySucceeds = true
    ∧ (stalling (.correct .reverse) 0).feed.watch ≠ none ∧ (stalling .seek 0).feed.watch ≠ none
    ∧ (ready .process).feed.watch = none := ⟨settled_ended _, by decide +kernel⟩

theorem test_meets_BarLeavesHomeBeginsAManualCycle :
    Settled onTheWay ∧ onTheWay.powered = true ∧ onTheWay.saw.state = .parked
    ∧ (ended { onTheWay with saw := sawing .fault none }).saw.state = .fault
    ∧ (cutting (sawing .advancing (some (cycle 1 none))) (.placed (results none none)) []).saw.state = .advancing :=
  ⟨settled_ended _, by decide +kernel⟩

/-- From FAULT: a request that waits is withdrawn and the feed decides afresh, a stalled feed stays. -/
theorem test_meets_BarLeavesHomeBeginsAManualCycle_waits :
    (let p := working plan 4000 { feeding .cutWait none with request := .waiting .automatic };
      let q := after .barLeavesHome (ended { p with saw := sawing .fault none });
      (q.saw.state, q.feed.request, q.feed.state)) = (.manual, .none, .grip)
    ∧ (let p := working plan 1000 { feeding .stalled none with stallOut := true };
      (after .barLeavesHome p).feed.state) = .stalled := by decide +kernel

/-- A cut of an ARMED entry in flight. -/
def advancing (attempt : Nat) : Part :=
  cutting (sawing .advancing (some (cycle attempt none))) (.entry 0 (results none none)) [entry 0 .cutting 4000]

/-- A manual cycle. -/
def manual (seen : Bool) : Part :=
  cutting (sawing .manual (some { cycle 0 none with owner := .operator, kind := .manual, completionSeen := seen }))
    (.placed (results none none)) []

theorem oneActive_of_first (p : Part) (h : ∀ i : Fin 8, p.isActive i = true → i = 0) : OneActive p :=
  fun i j hi hj => (h i hi).trans (h j hj).symm

theorem test_meets_EndOfStrokeCompletesTheCut_oneActive :
    OneActive (advancing 1) ∧ OneActive (manual true) ∧ OneActive (manual false) ∧ OneActive onTheWay :=
  ⟨oneActive_of_first _ (by decide +kernel), oneActive_of_first _ (by decide +kernel),
    oneActive_of_first _ (by decide +kernel), oneActive_of_first _ (by decide +kernel)⟩

theorem test_meets_EndOfStrokeCompletesTheCut :
    Settled (advancing 1) ∧ (advancing 1).powered = true ∧ (advancing 1).saw.state = .advancing
    ∧ (advancing 1).saw.cycle = some (cycle 1 none) ∧ (advancing 1).pins.homeClosed = false
    ∧ (manual true).saw.state = .manual ∧ ((manual true).saw.cycle.map (·.completionSeen)) = some true
    ∧ ((manual false).saw.cycle.map (·.completionSeen)) = some false ∧ onTheWay.saw.state = .parked
    ∧ ((after .endOfStroke (advancing 1)).recordAt 0).map (·.totals) = some (1, 3990, 0, 0) :=
  ⟨settled_ended _, by decide +kernel⟩

/-- A cut in flight bound to a record, with a target. -/
def cutOf (r : Record) (target : CutTarget) : Part :=
  let p := advancing 1
  ended ({ p with table := { p.table with bound := some { slot := 0, kind := .automatic, target } } }.setRecord 0 (some r))

/-- The record that its completion leaves. -/
def cutLeaves (r : Record) (target : CutTarget) : Option Record := (after .endOfStroke (cutOf r target)).recordAt 0

/-- A log placed in the list, in excess, uncounted; the last log of a top seen; a reference cut; a dropped stem. -/
theorem test_meets_EndOfStrokeCompletesTheCut_targets :
    (cutLeaves (stem .active .cut [entry 0 .pending 500]) (.placed (results none none))).map
        (fun r => (r.entries.map (·.state), r.revision)) = some ([.done, .armed], 5)
    ∧ (cutLeaves (stem .active .cut (List.replicate 12 (entry 0 .pending 500))) (.placed (results none none))).map (·.totals)
        = some (1, 3990, 1, 3990)
    ∧ (cutLeaves { stem .active .cut (List.replicate 12 (entry 0 .pending 500)) with excessCount := 255 }
        (.placed (results none none))).map (·.totals) = some (0, 0, 255, 0)
    ∧ (cutLeaves { stem .active .cut [entry 0 .cutting 4000] with topSeen := true, held := some 5000 }
        (.entry 0 (results none none))).map (fun r => (r.state, r.topRemnant)) = some (.finished, some 1010)
    ∧ (cutLeaves { stem .active .cut [entry 0 .cutting 4000] with topSeen := true, held := some 3000 }
        (.entry 0 (results none none))).map (·.topRemnant) = some (some 0)
    ∧ (cutLeaves { stem .active .none [entry 0 .pending 4000] with felled := false, stump := none }
        (.reference .fellProcess (some 310))).map (fun r => (r.reference, r.felled, r.stump, r.entries.map (·.state)))
        = some (.cut, true, some 310, [.armed])
    ∧ (cutLeaves (stem .dropped .none [entry 0 .cutting 4000]) (.entry 0 (results none none))).map
        (fun r => r.entries.map fun e => (e.state, e.results.map (·.flags.droppedDuringCut))) = some [(.done, some true)]
    := by decide +kernel

/-- A return in progress, with a cause and a request. -/
def returning (cause : ReturnCause) (request : CutRequest) : Part :=
  let p := working plan 4000 { feeding .cutWait none with request }
  ended { p with pins := { p.pins with homeClosed := false }, saw := sawing .returning (some (cycle 1 (some cause))) }

theorem test_meets_BarHomeEndsTheCycle :
    Settled (returning .completed .none) ∧ (returning .completed .none).powered = true
    ∧ (returning .completed .none).feed.request = .none
    ∧ (returning .completed (.waiting .direct)).feed.request = .waiting .direct
    ∧ (returning .firstTimeout (.taken .automatic)).feed.request = .taken .automatic
    ∧ (returning .secondTimeout .none).saw.cycle.bind (·.cause) = some .secondTimeout
    ∧ (manual true).feed.request = .taken .automatic
    ∧ (ended { onTheWay with saw := sawing .jammed none }).saw.state = .jammed
    ∧ (after .barHome (returning .completed (.waiting .direct))).saw.state = .advancing
    ∧ (after .barHome (returning .secondTimeout .none)).saw.state = .fault := ⟨settled_ended _, by decide +kernel⟩

/-- A jam or a manual cycle that ends PARKED lets a feed in GRIP decide afresh; one that ends in FAULT, or another feed state, keeps
the feed. -/
theorem test_meets_BarHomeEndsTheCycle_feed :
    (let jam (f : FeedState) : Part := let p := working plan 1000 (feeding f (some (entry 0 .armed 4000)));
        ended { p with pins := { p.pins with homeClosed := false }, saw := sawing .jammed none };
      let hand (f : FeedState) (seen : Bool) : Part := let p := working plan 1000 (feeding f (some (entry 0 .armed 4000)));
        ended { p with pins := { p.pins with homeClosed := false }
                       saw := sawing .manual (some { cycle 0 none with owner := .operator, kind := .manual, completionSeen := seen }) };
      let seen (p : Part) := let q := after .barHome p;
        (q.saw.state, q.feed.state);
      (seen (jam .grip), seen (jam .stalled), seen (hand .grip true), seen (hand .grip false)))
      = ((.parked, .feed), (.parked, .stalled), (.parked, .feed), (.parked, .feed)) := by decide +kernel

theorem test_meets_SawTimeoutsReturnAndJam :
    Settled (advancing 2) ∧ (advancing 2).powered = true ∧ (advancing 2).saw.cutTimer ≠ none
    ∧ (advancing 2).saw.cycle = some (cycle 2 none) ∧ (advancing 2).pins.homeClosed = false
    ∧ (returning .completed .none).saw.returnTimer ≠ none ∧ onTheWay.saw.cutTimer = none ∧ onTheWay.saw.returnTimer = none
    ∧ (after .cutTimerExpiry (advancing 2)).raised .sawTimeout = true
    ∧ (after .returnTimerExpiry (returning .completed .none)).saw.state = .jammed := ⟨settled_ended _, by decide +kernel⟩

/-- An abort of a placed cut changes no entry; a CUTTING entry is ARMED again, PENDING in a dropped stem. -/
theorem test_meets_SawTimeoutsReturnAndJam_records :
    (let leaves (r : Record) (t : CutTarget) := (after .cutTimerExpiry (cutOf r t)).recordAt 0;
      (leaves (stem .active .cut plan) (.placed (results none none)) = some (stem .active .cut plan)
        ∧ leaves (stem .active .cut [entry 0 .cutting 4000]) (.entry 0 (results none none))
            = some (stem .active .cut [entry 0 .armed 4000])
        ∧ leaves (stem .dropped .none [entry 0 .cutting 4000]) (.entry 0 (results none none))
            = some (stem .dropped .none [entry 0 .pending 4000]))) := by decide +kernel

/-- Both ends of the window take the entry in a manual cut, one millimetre outside does not unless the list is full. -/
theorem test_meets_CutStartSettlesTheEntry :
    (settling 3960).logMm = some 3960
    ∧ (settling 3960).cutEntry (stem .active .cut plan) .manual = some (entry 0 .armed 4000)
    ∧ (settling 4030).cutEntry (stem .active .cut plan) .manual = some (entry 0 .armed 4000)
    ∧ (settling 4031).cutEntry (stem .active .cut plan) .manual = none
    ∧ (settling 4031).cutEntry (stem .active .cut (plan ++ List.replicate 10 (entry 2 .pending 500))) .manual
        = some (entry 0 .armed 4000)
    ∧ (stem .active .cut []).armed = none := by decide +kernel

/-! ### The invariants' hypotheses -/

theorem test_meets_EveryStepKeepsSettled : Settled onTheWay ∧ ∃ s', step (alone onTheWay) = .next s' := ⟨settled_ended _, _, rfl⟩

/-- The demands of a feed on its way, a parked saw and a running one, an estimate below DROP_DIAMETER and the slip window of a valid
wheel. -/
theorem test_meets_EveryStepKeepsSettled_watches :
    onTheWay.powered = true ∧ onTheWay.link.image.feed = .forward (onTheWay.speciesValue (·.feedMax))
    ∧ (onTheWay.link.image.saw, (advancing 1).link.image.saw, (returning .completed .none).link.image.saw) = (.none, .advance, .back)
    ∧ onTheWay.link.image.knife = .clamp 55
    ∧ (gone.usable .rl, gone.hasActive, gone.diameter.dropTimer, onTheWay.diameter.dropTimer) = (true, true, some 0, none)
    ∧ ((slipping 0 0).length.slip, (ended { onTheWay with length := { onTheWay.length with contact := .lifted } }).length.slip)
        = (some { wheel := 0, roller := 0 }, none) := by decide +kernel

theorem test_meets_EveryStepKeepsTheStemTableLaws : OneActive onTheWay ∧ ListsBounded onTheWay ∧ SpeciesNamedValid onTheWay := by
  have h : ∀ i : Fin 8, onTheWay.recordAt i = if i = 0 then some (stem .active .cut plan) else none := by decide +kernel
  refine ⟨oneActive_of_first _ (by decide +kernel), fun i r hr => ?_, fun i r hr => ?_⟩
  · rw [h i] at hr
    split at hr
    · cases hr; decide
    · simp at hr
  · rw [h i] at hr
    split at hr
    · cases hr; decide +kernel
    · simp at hr

theorem test_meets_EveryStepKeepsTheTotals : (stem .active .cut plan).totalled := by
  unfold Record.totalled
  decide

theorem test_meets_EveryStepKeepsMotionGuarded : MotionGuarded onTheWay ∧ onTheWay.feed.state.motion = true := by
  unfold MotionGuarded
  decide +kernel

theorem test_meets_EveryStepKeepsTheQueuesBounded :
    QueuesBounded (asked (List.replicate 4 [1, 1]) onTheWay) ∧ QueuesBounded (offBus onTheWay) := by
  unfold QueuesBounded
  decide +kernel

end Sys2Proof.Tests
end

section
namespace Sys2Proof.Machine

/-! ### What the tally of a cut list is made of -/

/-- Lists of entries that contribute the same to a record's totals. -/
def SameTally (es es' : List Entry) : Prop :=
  (es'.map Entry.counted).sum = (es.map Entry.counted).sum ∧ (es'.map Entry.isLog).sum = (es.map Entry.isLog).sum

/-- An entry that is DONE before and after or at neither time, with its results, counts the same. -/
def SameCount (e e' : Entry) : Prop := e'.counted = e.counted ∧ e'.isLog = e.isLog

theorem SameCount.of_open {e e' : Entry} (h : e.state ≠ .done) (h' : e'.state ≠ .done) : SameCount e e' := by
  simp [SameCount, Entry.counted, Entry.isLog, h, h']

theorem skipEntry_sameCount (e : Entry) : SameCount e (skipEntry e) := by
  unfold skipEntry
  split
  · next h => exact .of_open (by rcases h with h | h <;> simp [h]) (by simp)
  · exact ⟨rfl, rfl⟩

theorem disarmEntry_sameCount (e : Entry) : SameCount e (disarmEntry e) := by
  unfold disarmEntry
  split
  · next h => exact .of_open (by simp [h]) (by simp)
  · exact ⟨rfl, rfl⟩

theorem SameTally.map {f : Entry → Entry} (h : ∀ e, SameCount e (f e)) (es : List Entry) : SameTally es (es.map f) := by
  constructor
  · rw [List.map_map]
    exact congrArg List.sum (List.map_congr_left fun e _ => (h e).1)
  · rw [List.map_map]
    exact congrArg List.sum (List.map_congr_left fun e _ => (h e).2)

/-- Arming the first PENDING entry moves no total. -/
theorem armFirst_sameTally : ∀ {es : List Entry} {e : Entry} {es' : List Entry}, armFirst es = some (e, es') →
    SameTally es es' := by
  intro es
  induction es with
  | nil => intro e es' h; simp [armFirst] at h
  | cons x xs ih =>
    intro e es' h
    unfold armFirst at h
    split at h
    · next hx =>
      obtain ⟨-, rfl⟩ := Prod.mk.inj (Option.some.inj h)
      simp [SameTally, Entry.counted, Entry.isLog, hx]
    · obtain ⟨⟨y, ys⟩, hy, hz⟩ := Option.map_eq_some_iff.mp h
      obtain ⟨-, rfl⟩ := Prod.mk.inj hz
      obtain ⟨hc, hl⟩ := ih hy
      simp [SameTally, hc, hl]

/-- Changing one entry of a state moves a sum over the list by what it moves that entry's contribution. -/
theorem changeFirst_sum {M : Type} [AddCommMonoid M] {g : Entry → M} {d : M} {ident : Nat} {st : EntryState}
    {f : Entry → Entry} (hf : ∀ e, e.state = st → g (f e) = d + g e) :
    ∀ {es es' : List Entry}, changeFirst ident st f es = some es' → (es'.map g).sum = d + (es.map g).sum := by
  intro es
  induction es with
  | nil => intro es' h; simp [changeFirst] at h
  | cons x xs ih =>
    intro es' h
    unfold changeFirst at h
    split at h
    · next hx =>
      obtain rfl := Option.some.inj h
      simp [hf x hx.2, add_assoc]
    · obtain ⟨ys, hy, rfl⟩ := Option.map_eq_some_iff.mp h
      simp [ih hy, add_left_comm]

/-- A change of an entry from one open state to another moves no total. -/
theorem changeFirst_sameTally {ident : Nat} {st : EntryState} {f : Entry → Entry} (hst : st ≠ .done)
    (hf : ∀ e, (f e).state ≠ .done) {es es' : List Entry} (h : changeFirst ident st f es = some es') : SameTally es es' := by
  have same : ∀ e, e.state = st → SameCount e (f e) := fun e he => .of_open (he ▸ hst) (hf e)
  constructor
  · simpa using changeFirst_sum (g := Entry.counted) (d := 0) (fun e he => by simp [(same e he).1]) h
  · simpa using changeFirst_sum (g := Entry.isLog) (d := 0) (fun e he => by simp [(same e he).2]) h

theorem afterDone_le (es : List Entry) : afterDone es ≤ es.length := by
  induction es with
  | nil => simp [afterDone]
  | cons e es ih =>
    unfold afterDone
    split
    · split <;> simp
    · next n hn => simp only [List.length_cons]; omega

/-- A new entry in a list adds its own contribution to a sum. -/
theorem insertIdx_sum {M : Type} [AddCommMonoid M] (g : Entry → M) {k : Nat} {es : List Entry} (hk : k ≤ es.length) (e : Entry) :
    ((es.insertIdx k e).map g).sum = g e + (es.map g).sum := by
  simpa using ((List.perm_insertIdx e es hk).map g).sum_eq

/-- An entry that leaves a list takes its own contribution with it. -/
theorem eraseIdx_sum {M : Type} [AddCommMonoid M] (g : Entry → M) {k : Nat} {es : List Entry} {e : Entry}
    (h : es[k]? = some e) : (es.map g).sum = g e + ((es.eraseIdx k).map g).sum := by
  obtain ⟨hk, rfl⟩ := List.getElem?_eq_some_iff.mp h
  simpa using (((List.getElem_cons_eraseIdx_perm hk).map g).sum_eq).symm

/-! ### What a record may become -/

/-- What any event but an attachment may make of a record: it names the same species, is ACTIVE only if it was, keeps its list
within the limit and its totals in agreement. -/
structure RecordMoves (r r' : Record) : Prop where
  species : r'.species = r.species
  active : r'.state = .active → r.state = .active
  bounded : r.entries.length ≤ listLimit → r'.entries.length ≤ listLimit
  totalled : r.totalled → r'.totalled

protected theorem RecordMoves.rfl (r : Record) : RecordMoves r r := ⟨rfl, id, id, id⟩

theorem RecordMoves.trans {r s t : Record} (h : RecordMoves r s) (k : RecordMoves s t) : RecordMoves r t :=
  ⟨k.species.trans h.species, h.active ∘ k.active, k.bounded ∘ h.bounded, k.totalled ∘ h.totalled⟩

theorem Record.totalled_of_sameTally {r r' : Record} (h : SameTally r.entries r'.entries) (ht : r'.totals = r.totals)
    (k : r.totalled) : r'.totalled := by
  simp only [Record.totals, Prod.mk.injEq] at ht
  obtain ⟨h1, h2, h3, h4⟩ := ht
  unfold Record.totalled at *
  rw [h.1, h.2, h1, h2, h3, h4]
  exact k

/-- A record whose totals stand and whose list tallies as before has moved. -/
theorem RecordMoves.of_sameTally {r r' : Record} (hs : r'.species = r.species) (ha : r'.state = .active → r.state = .active)
    (hb : r'.entries.length = r.entries.length) (ht : SameTally r.entries r'.entries) (hk : r'.totals = r.totals) :
    RecordMoves r r' := ⟨hs, ha, fun h => hb ▸ h, Record.totalled_of_sameTally ht hk⟩

protected theorem SameTally.rfl (es : List Entry) : SameTally es es := ⟨rfl, rfl⟩

theorem Record.finish_moves (r : Record) : RecordMoves r r.finish :=
  .of_sameTally rfl (by simp [Record.finish]) (by simp [Record.finish]) (.map skipEntry_sameCount _) rfl

theorem Record.finishTop_moves (r : Record) (x : Int) : RecordMoves r (r.finishTop x) :=
  .of_sameTally rfl (by simp [Record.finishTop, Record.finish]) (by simp [Record.finishTop, Record.finish])
    (.map skipEntry_sameCount _) rfl

theorem Record.drop_moves (r : Record) : RecordMoves r r.drop :=
  .of_sameTally rfl (by simp [Record.drop]) (by simp [Record.drop]) (.map disarmEntry_sameCount _) rfl

theorem Record.appendEntry_moves {r : Record} {st : EntryState} (plan : Planned) (hst : st ≠ .done)
    (hl : r.entries.length < listLimit) : RecordMoves r (r.appendEntry st plan) where
  species := rfl
  active := id
  bounded _ := by simpa [Record.appendEntry] using hl
  totalled := Record.totalled_of_sameTally
    (by simp [SameTally, Record.appendEntry, Entry.counted, Entry.isLog, hst]) rfl

/-- The arming test's record. -/
theorem armingTest_moves (p : Part) (r : Record) : RecordMoves r (p.armingTest r).1 := by
  unfold Part.armingTest
  split
  · split
    · next h => exact .of_sameTally rfl id (armFirst_spec h).2.1 (armFirst_sameTally h) rfl
    · split
      · next h => exact Record.appendEntry_moves _ (by simp) h.2
      · exact .rfl r
  · exact .rfl r

/-- A list whose entry of a state has become another's. -/
theorem RecordMoves.of_changeFirst {r : Record} {ident : Nat} {st : EntryState} {f : Entry → Entry} (hst : st ≠ .done)
    (hf : ∀ e, (f e).state ≠ .done) {es : List Entry} (h : changeFirst ident st f r.entries = some es) :
    RecordMoves r { r with entries := es } :=
  .of_sameTally (rfl) id (changeFirst_length h) (changeFirst_sameTally hst hf h) rfl

theorem toCutting_moves (r : Record) (ident : Nat) :
    RecordMoves r { r with entries := (changeFirst ident .armed Entry.toCutting r.entries).getD r.entries } := by
  rcases h : changeFirst ident .armed Entry.toCutting r.entries with _ | es
  · exact .rfl r
  · exact .of_changeFirst (by simp) (by simp [Entry.toCutting]) h

/-- A recorded log counts once, in an entry or in excess (01 R14). -/
theorem Record.recordCut_moves (r : Record) (kind : CutKind) (t : CutTarget) : RecordMoves r (r.recordCut kind t).1 := by
  cases t with
  | reference prof d => exact .rfl r
  | entry ident x =>
    unfold Record.recordCut
    dsimp only
    split
    · next es h =>
      refine ⟨rfl, id, fun hb => (changeFirst_length h).symm ▸ hb, fun ⟨hp, hl⟩ => ⟨?_, ?_⟩⟩
      · have := changeFirst_sum (g := Entry.counted) (d := x.actual)
          (fun e he => by simp [Entry.counted, he, Results.atCompletion]) h
        simp only [Record.countLog, this, hp]
        omega
      · have := changeFirst_sum (g := Entry.isLog) (d := 1) (fun e he => by simp [Entry.isLog, he]) h
        simp only [Record.countLog, this, hl]
        omega
    · exact .rfl r
  | placed x =>
    unfold Record.recordCut
    dsimp only
    split
    · next hlt =>
      refine ⟨rfl, id, fun _ => ?_, fun ⟨hp, hl⟩ => ⟨?_, ?_⟩⟩
      · simpa [List.length_insertIdx, afterDone_le, Record.countLog] using hlt
      · simp only [Record.countLog, insertIdx_sum _ (afterDone_le r.entries), hp]
        simp only [placedEntry, Entry.counted, Results.atCompletion, if_true, Option.map_some, Option.getD_some]
        omega
      · simp only [Record.countLog, insertIdx_sum _ (afterDone_le r.entries), hl]
        simp only [placedEntry, Entry.isLog, if_true]
        omega
    · split
      · refine ⟨rfl, id, id, fun ⟨hp, hl⟩ => ⟨?_, ?_⟩⟩
        · simp only [Record.countExcess, Record.countLog, hp]; omega
        · simp only [Record.countExcess, Record.countLog, hl]; omega
      · exact .rfl r

theorem Record.recordReference_moves (r : Record) (prof : Profile) (d : Option Nat) :
    RecordMoves r (r.recordReference prof d) := .of_sameTally rfl id rfl (.rfl _) rfl

theorem Record.reach_spec {r : Record} {k : Nat} {e : Entry} (h : r.reach k = some e) :
    r.entries[k]? = some e ∧ e.state ≠ .done := by
  unfold Record.reach at h
  split at h
  · next x hx =>
    split at h
    · next hs =>
      obtain rfl := Option.some.inj h
      exact ⟨hx, by rcases hs with hs | hs <;> simp [hs]⟩
    · cases h
  · cases h

theorem Record.cancelEntry_moves {r : Record} {k : Nat} {e : Entry} (h : r.reach k = some e) :
    RecordMoves r (r.cancelEntry k) := by
  obtain ⟨he, hs⟩ := Record.reach_spec h
  refine ⟨rfl, id, fun hb => (List.length_eraseIdx_le ..).trans hb, Record.totalled_of_sameTally ⟨?_, ?_⟩ rfl⟩
  · have := eraseIdx_sum Entry.counted he
    simp [this, Entry.counted, hs, Record.cancelEntry]
  · have := eraseIdx_sum Entry.isLog he
    simp [this, Entry.isLog, hs, Record.cancelEntry]

theorem modify_sum {M : Type} [AddCommMonoid M] (g : Entry → M) {f : Entry → Entry} (hf : ∀ e, g (f e) = g e) (k : Nat)
    (es : List Entry) : ((es.modify k f).map g).sum = (es.map g).sum := by
  induction es generalizing k with
  | nil => simp
  | cons x xs ih => cases k <;> simp [hf, ih]

theorem Record.changeEntry_moves (r : Record) (k : Nat) (plan : Planned) : RecordMoves r (r.changeEntry k plan) :=
  .of_sameTally rfl id (List.length_modify ..) ⟨modify_sum Entry.counted (f := fun e => { e with plan }) (fun _ => rfl) _ _,
    modify_sum Entry.isLog (f := fun e => { e with plan }) (fun _ => rfl) _ _⟩ rfl

theorem Record.insertState_spec {r : Record} {k : Nat} {st : EntryState} (h : r.insertState k = some st) :
    k ≤ r.entries.length ∧ st ≠ .done := by
  unfold Record.insertState at h
  split at h
  · next hk => obtain rfl := Option.some.inj h; exact ⟨hk.le, by simp⟩
  · obtain ⟨e, he, rfl⟩ := Option.map_eq_some_iff.mp h
    obtain ⟨hk, hs⟩ := Record.reach_spec he
    exact ⟨(List.getElem?_eq_some_iff.mp hk).1.le, hs⟩

theorem Record.insertEntry_moves {r : Record} {k : Nat} {st : EntryState} (plan : Planned) (h : r.insertState k = some st)
    (hl : r.entries.length < listLimit) : RecordMoves r (r.insertEntry k st plan) := by
  obtain ⟨hk, hst⟩ := Record.insertState_spec h
  have base : ∃ es, (if st = .armed then r.entries.map disarmEntry else r.entries) = es ∧ es.length = r.entries.length
      ∧ SameTally r.entries es := by
    split
    · exact ⟨_, rfl, by simp, .map disarmEntry_sameCount _⟩
    · exact ⟨_, rfl, rfl, .rfl _⟩
  obtain ⟨es, hes, hlen, hc, hi⟩ := base
  unfold Record.insertEntry
  rw [hes]
  refine ⟨rfl, id, fun _ => ?_, Record.totalled_of_sameTally ⟨?_, ?_⟩ rfl⟩
  · simpa [List.length_insertIdx, hlen, hk] using hl
  · simp [insertIdx_sum _ (hlen ▸ hk), hc, Entry.counted, hst]
  · simp [insertIdx_sum _ (hlen ▸ hk), hi, Entry.isLog, hst]

end Sys2Proof.Machine
end

section
namespace Sys2Proof.Machine

/-! ### What the stem table may become -/

/-- From `p` to `q` every generation stands, and every record of `q` is one of `p` that has moved. -/
def TableMoves (p q : Part) : Prop := ∀ i : Fin 8, q.table.slots[i].generation = p.table.slots[i].generation
  ∧ ∀ r', q.recordAt i = some r' → ∃ r, p.recordAt i = some r ∧ RecordMoves r r'

theorem TableMoves.of_table {p q : Part} (h : q.table = p.table) : TableMoves p q := fun i => by
  unfold Part.recordAt
  rw [h]
  exact ⟨rfl, fun r' hr => ⟨r', hr, .rfl r'⟩⟩

theorem TableMoves.of_slots {p q : Part} (h : q.table.slots = p.table.slots) : TableMoves p q := fun i => by
  unfold Part.recordAt
  rw [h]
  exact ⟨rfl, fun r' hr => ⟨r', hr, .rfl r'⟩⟩

protected theorem TableMoves.rfl (p : Part) : TableMoves p p := .of_table (rfl)

theorem TableMoves.trans {p q t : Part} (h : TableMoves p q) (k : TableMoves q t) : TableMoves p t := fun i =>
  ⟨(k i).1.trans (h i).1, fun r'' hr'' =>
    let ⟨_, hr', m'⟩ := (k i).2 r'' hr''
    let ⟨r, hr, m⟩ := (h i).2 _ hr'
    ⟨r, hr, m.trans m'⟩⟩

/-- A part whose table is that of another moves as the other does. -/
theorem TableMoves.then_table {p q t : Part} (h : TableMoves p q) (k : t.table = q.table) : TableMoves p t :=
  h.trans (.of_table k)

theorem TableMoves.of_length (p : Part) (l : LengthUnit) : TableMoves p { p with length := l } := .of_table rfl

theorem TableMoves.of_saw (p : Part) (w : Saw) : TableMoves p { p with saw := w } := .of_table rfl

theorem generation_setRecord (p : Part) (i j : Fin 8) (r : Option Record) :
    (p.setRecord i r).table.slots[j].generation = p.table.slots[j].generation :=
  congrArg StemId.generation (stemId_setRecord p i j r)

/-- Writing back a record that has moved. -/
theorem TableMoves.of_setRecord {p : Part} {i : Fin 8} {r r' : Record} (h : p.recordAt i = some r) (m : RecordMoves r r') :
    TableMoves p (p.setRecord i (some r')) := fun j => by
  refine ⟨generation_setRecord p i j _, fun x hx => ?_⟩
  rw [recordAt_setRecord] at hx
  split at hx
  · next hij =>
    obtain rfl := Option.some.inj hx
    exact ⟨r, hij ▸ h, m⟩
  · exact ⟨x, hx, .rfl x⟩

theorem recordAt_of_active {p : Part} {i : Fin 8} {r : Record} (hi : p.activeSlot = some i) (hr : p.activeRecord = some r) :
    p.recordAt i = some r := (activeRecord_of_slot hi).symm.trans hr

/-! ### Operations that leave the table -/

@[simp] theorem feedReact_table (armed : Bool) (p : Part) : (feedReact armed p).table = p.table := (feedReact_feedOnly _ _).table
@[simp] theorem feedEnd_table (p : Part) : (feedEnd p).table = p.table := (feedEnd_feedOnly p).table
@[simp] theorem feedReferenced_table (p : Part) : (feedReferenced p).table = p.table := (feedReferenced_feedOnly p).table

@[simp] theorem guidanceTest_table (p : Part) : (guidanceTest p).table = p.table := by
  unfold guidanceTest
  split
  · split <;> rfl
  · rfl

@[simp] theorem handOver_table (e : Option Entry) (fresh : Bool) (p : Part) : (handOver e fresh p).table = p.table := by
  unfold handOver
  dsimp only
  split <;> simp

@[simp] theorem armingHands_table (a : Arming) (p : Part) : (armingHands a p).table = p.table := by
  cases a <;> simp [armingHands]

@[simp] theorem endPeriod_table (p : Part) : (endPeriod p).table = p.table := by simp [endPeriod]

@[simp] theorem rebase_table (active : Bool) (p : Part) : (rebase active p).table = p.table := by
  unfold rebase
  repeat' split
  all_goals rfl

@[simp] theorem holdTest_table (p : Part) : (holdTest p).table = p.table := (holdTest_feedOnly p).table

@[simp] theorem holdComes_table (p : Part) : (holdComes p).table = p.table := (holdComes_feedOnly p).table

@[simp] theorem takeSample_table (p : Part) : (takeSample p).table = p.table := by
  unfold takeSample
  split <;> rfl

@[simp] theorem sampleDue_table (p : Part) : (sampleDue p).table = p.table := by
  unfold sampleDue
  repeat' split
  all_goals first | rfl | exact takeSample_table p

@[simp] theorem midCross_table (before : Option Int) (p : Part) : (midCross before p).table = p.table := by
  unfold midCross
  repeat' split
  all_goals rfl

@[simp] theorem creepCheck_table (p : Part) : (creepCheck p).table = p.table := by
  unfold creepCheck
  repeat' split
  all_goals rfl

@[simp] theorem feedTravel_table (before : Option Int) (p : Part) : (feedTravel before p).table = p.table :=
  (feedTravel_feedOnly before p).table

@[simp] theorem feedTravelSampled_table (before : Option Int) (p : Part) : (feedTravelSampled before p).table = p.table := by
  rcases feedTravelSampled_eq before p with h | ⟨-, -, h | h | h⟩ <;> simp [h]

@[simp] theorem guidanceTravel_table (before : Option Int) (p : Part) : (guidanceTravel before p).table = p.table := by
  unfold guidanceTravel
  split <;> simp

@[simp] theorem slipClose_table (p : Part) : (slipClose p).table = p.table := by
  unfold slipClose
  repeat' split
  all_goals first | rfl | (dsimp only; repeat' split) <;> rfl

@[simp] theorem seat_table (d : Int) (p : Part) : (seat d p).table = p.table := by
  unfold seat
  repeat' split
  all_goals rfl

@[simp] theorem sawParks_table (p : Part) : (sawParks p).table = p.table := (feedSawParked_feedOnly _).table

/-! ### Operations that move it -/

theorem arm_tableMoves (i : Fin 8) (p : Part) : TableMoves p (arm i p) := by
  unfold arm
  split
  · exact .rfl p
  · next r h => exact (TableMoves.of_setRecord h (armingTest_moves p r)).then_table (by simp)

theorem finishTop_tableMoves {i : Fin 8} {r r₀ : Record} {p : Part} (x : Int) (h : p.recordAt i = some r₀)
    (m : RecordMoves r₀ r) : TableMoves p (finishTop i r x p) :=
  (TableMoves.of_setRecord h (m.trans (r.finishTop_moves x))).then_table (by simp [finishTop])

theorem dropReport_tableMoves (p : Part) : TableMoves p (dropReport p) := by
  unfold dropReport
  split
  · next i r hi hr =>
    exact (TableMoves.of_setRecord (recordAt_of_active hi hr) r.drop_moves).then_table (by simp [rescale])
  · exact .rfl p

theorem established_tableMoves (i : Fin 8) (p : Part) : TableMoves p (established i p) :=
  (TableMoves.of_table (by simp)).trans (arm_tableMoves i _)

theorem RecordMoves.of_reference (r : Record) (x : Reference) : RecordMoves r { r with reference := x } :=
  .of_sameTally (rfl) id (rfl) (.rfl _) (rfl)

theorem referenceReport_tableMoves (p : Part) : TableMoves p (referenceReport p) := by
  unfold referenceReport
  split
  · next i r hi hr =>
    split
    · exact (TableMoves.of_setRecord (recordAt_of_active hi hr) (.of_reference r _)).trans (established_tableMoves i _)
    · exact .rfl p
  · exact .rfl p

theorem topReport_tableMoves (x : Int) (p : Part) : TableMoves p (topReport x p) := by
  unfold topReport
  split
  · next i r hi hr =>
    have h := recordAt_of_active hi hr
    split
    · exact .rfl p
    · split
      · exact .of_setRecord h (.of_sameTally rfl id rfl (.rfl _) rfl)
      · exact finishTop_tableMoves x h (.rfl r)
  · exact .rfl p

theorem cutStart_tableMoves (kind : CutKind) (p : Part) : TableMoves p (cutStart kind p) := by
  unfold cutStart
  split
  · next i r hi hr =>
    dsimp only
    split
    · exact .of_slots rfl
    · split
      · next e he =>
        refine (TableMoves.of_setRecord (recordAt_of_active hi hr) (toCutting_moves r e.ident)).trans ?_
        exact .of_slots (by rw [handOver_table]; rfl)
      · exact .of_slots rfl
  · exact .of_slots rfl

theorem afterLog_tableMoves {i : Fin 8} {r : Record} {p : Part} (x : Int) (h : p.recordAt i = some r) :
    TableMoves p (afterLog i r x p) := by
  unfold afterLog
  split
  · exact finishTop_tableMoves _ h (.rfl r)
  · exact arm_tableMoves i p

/-- The record that a cut completion leaves in its slot, before what follows in an ACTIVE record. -/
theorem completed_tableMoves {p : Part} {i : Fin 8} {r r' : Record} (active : Bool) (n : Notice) (h : p.recordAt i = some r)
    (m : RecordMoves r r') :
    TableMoves p { place n ((rebase active p).setRecord i (some r')) with
      table := { (place n ((rebase active p).setRecord i (some r'))).table with bound := none } } :=
  ((TableMoves.of_table (rebase_table active p)).trans
    (.of_setRecord (p := rebase active p) (by rw [Part.recordAt, rebase_table]; exact h) m)).trans (.of_slots rfl)

theorem cutComplete_tableMoves (p : Part) : TableMoves p (cutComplete p) := by
  unfold cutComplete
  split
  · exact .rfl p
  · next b hb =>
    split
    · exact .of_slots rfl
    · next r hr =>
      dsimp only
      split
      · next prof d ht =>
        have m := completed_tableMoves (r.state == .active)
          (cutDoneNotice (p.stemId b.slot) b (r.recordReference prof d) .reference none) hr (r.recordReference_moves prof d)
        split
        · exact m.trans (established_tableMoves _ _)
        · exact m
      · next t ht =>
        have m := completed_tableMoves (r.state == .active)
          (cutDoneNotice (p.stemId b.slot) b (r.recordCut b.kind b.target).1 (r.recordCut b.kind b.target).2.1
            (r.recordCut b.kind b.target).2.2) hr (r.recordCut_moves b.kind b.target)
        split
        · exact m.trans (afterLog_tableMoves _ (by rw [Part.recordAt]; exact recordAt_setRecord_self _ _ _))
        · exact m

theorem cutAbort_tableMoves (p : Part) : TableMoves p (cutAbort p) := by
  unfold cutAbort
  dsimp only
  have base : TableMoves p { p with
      length := { p.length with carry := none }
      table := { p.table with bound := none } } := .of_slots rfl
  split
  · next i _ ident _ _ =>
    split
    · exact base
    · next r hr =>
      split
      · exact base
      · next es hes =>
        have m := base.trans (.of_setRecord hr (.of_changeFirst (by simp) (fun e => by
          unfold abortState
          dsimp only
          split <;> simp) hes))
        split
        · exact m.then_table (by simp)
        · exact m
  · exact base

theorem referenceStem_tableMoves (p : Part) : TableMoves p (referenceStem p) := by
  unfold referenceStem
  split
  · split
    · exact (TableMoves.of_table rfl).trans (referenceReport_tableMoves _)
    · exact .rfl p
  · exact .rfl p

theorem reportTop_tableMoves (p : Part) : TableMoves p (reportTop p) := by
  unfold reportTop
  split
  · split
    · exact topReport_tableMoves _ p
    · exact .rfl p
  · exact .rfl p

theorem endQualify_tableMoves (p : Part) : TableMoves p (endQualify p) := by
  unfold endQualify
  split
  · exact .rfl p
  · dsimp only
    split
    · split
      · exact .of_table rfl
      · split
        · exact (TableMoves.of_table rfl).trans (reportTop_tableMoves _)
        · exact (TableMoves.of_table rfl).trans (referenceStem_tableMoves _)
    · exact .rfl p

theorem selectedTravel_tableMoves (d : Int) (p : Part) : TableMoves p (selectedTravel d p) := by
  unfold selectedTravel
  dsimp only
  have m : TableMoves p (creepCheck
      (if 0 < d then midCross p.length.logPos (sampleDue (moveSums d p)) else sampleDue (moveSums d p))) :=
    .of_table (by split <;> simp [moveSums])
  exact (m.trans (endQualify_tableMoves _)).then_table (by simp)

theorem wheelCounts_tableMoves (forward : Bool) (p : Part) : TableMoves p (wheelCounts forward p) := by
  unfold wheelCounts
  dsimp only
  refine TableMoves.then_table ?_ (slipClose_table _)
  split
  · exact (TableMoves.of_length p _).trans (selectedTravel_tableMoves _ _)
  · exact .of_length p _

theorem rollerCounts_tableMoves (forward : Bool) (p : Part) : TableMoves p (rollerCounts forward p) := by
  unfold rollerCounts
  dsimp only
  refine TableMoves.then_table ?_ (seat_table _ _)
  split
  · exact (TableMoves.of_length p _).trans (selectedTravel_tableMoves _ _)
  · exact .of_length p _

/-! ### The saw and the feed's requests -/

@[simp] theorem feedCutOver_table (p : Part) : (feedCutOver p).table = p.table := (feedCutOver_feedOnly p).table
@[simp] theorem feedSawLeft_table (p : Part) : (feedSawLeft p).table = p.table := (feedSawLeft_feedOnly p).table
@[simp] theorem feedDecide_table (p : Part) : (feedDecide p).table = p.table := (feedDecide_feedOnly p).table
@[simp] theorem enterFeed_table (st : FeedState) (p : Part) : (enterFeed st p).table = p.table := (enterFeed_feedOnly st p).table
@[simp] theorem feedSetValue_table (v : FeedValue) (p : Part) : (feedSetValue v p).table = p.table :=
  (feedSetValue_feedOnly v p).table

theorem strokeCompletes_tableMoves (p : Part) : TableMoves p (strokeCompletes p) := by
  have m : TableMoves p (feedCutOver (cutComplete { p with saw := p.saw.return_ .completed })) :=
    (TableMoves.trans (.of_table rfl) (cutComplete_tableMoves { p with saw := p.saw.return_ .completed })).then_table (by simp)
  unfold strokeCompletes
  dsimp only
  split
  · exact m.then_table (by simp)
  · exact m

theorem sawAdvances_tableMoves (c : Cycle) (p : Part) : TableMoves p (sawAdvances c p) := by
  have m := TableMoves.trans (p := p) (.of_table rfl) (cutStart_tableMoves c.kind
    { p with saw := { p.saw with state := .advancing, cycle := some c, cutTimer := some 0, returnTimer := none } })
  unfold sawAdvances
  dsimp only
  split
  · exact m.trans (strokeCompletes_tableMoves _)
  · exact m

theorem offerRequest_tableMoves (p : Part) : TableMoves p (offerRequest p) := by
  unfold offerRequest
  split
  · split
    · exact (TableMoves.of_table rfl).trans (sawAdvances_tableMoves _ _)
    · exact .rfl p
  · exact .rfl p

theorem returnEnds_tableMoves (p : Part) : TableMoves p (returnEnds p) := by
  have parks : TableMoves p (sawParks p) := .of_table (by simp)
  unfold returnEnds
  split
  · exact parks
  · split
    · split
      · exact sawAdvances_tableMoves _ p
      · exact parks
    · exact .of_table rfl
    · exact parks
    · exact parks

theorem jamEnds_tableMoves (p : Part) : TableMoves p (jamEnds p) := by
  unfold jamEnds
  split
  · exact .of_table rfl
  · exact .of_table rfl
  · exact .of_table (by simp)
  · exact .of_table (by simp)

theorem manualEnds_tableMoves (p : Part) : TableMoves p (manualEnds p) := by
  unfold manualEnds
  split
  · exact .of_table (by simp)
  · split
    · exact .of_table (by simp)
    · split
      · exact (cutAbort_tableMoves p).then_table rfl
      · exact (cutAbort_tableMoves p).then_table (by simp)

theorem firstTimeout_tableMoves (p : Part) : TableMoves p (firstTimeout p) := by
  have m := TableMoves.trans (p := p) (.of_table rfl) (cutAbort_tableMoves { p with saw := p.saw.return_ .firstTimeout })
  unfold firstTimeout
  dsimp only
  split
  · exact m.trans (returnEnds_tableMoves _)
  · exact m

theorem secondTimeout_tableMoves (p : Part) : TableMoves p (secondTimeout p) := by
  have m : TableMoves p (feedCutOver (cutAbort (raise .sawTimeout { p with saw := p.saw.return_ .secondTimeout }))) :=
    (TableMoves.trans (p := p) (.of_table rfl) (cutAbort_tableMoves (raise .sawTimeout
      { p with saw := p.saw.return_ .secondTimeout }))).then_table (by simp)
  unfold secondTimeout
  dsimp only
  split
  · exact m.then_table rfl
  · exact m

theorem cutTimesOut_tableMoves (p : Part) : TableMoves p (cutTimesOut p) := by
  unfold cutTimesOut
  split
  · split
    · exact secondTimeout_tableMoves p
    · exact firstTimeout_tableMoves p
  · exact .rfl p

theorem returnTimesOut_tableMoves (p : Part) : TableMoves p (returnTimesOut p) := by
  unfold returnTimesOut
  split
  · exact .of_table (by simp)
  · exact .rfl p

theorem barLeaves_tableMoves (p : Part) : TableMoves p (barLeaves p) := by
  unfold barLeaves
  dsimp only
  split
  · exact (TableMoves.of_table (by simp)).trans (cutStart_tableMoves _ _)
  · exact .of_table rfl

theorem strokeEnds_tableMoves (p : Part) : TableMoves p (strokeEnds p) := by
  have base : TableMoves p { p with pins := { p.pins with endOfStroke := true } } := .of_table rfl
  unfold strokeEnds
  dsimp only
  split
  · exact base.trans (strokeCompletes_tableMoves _)
  · split
    · split
      · exact base
      · exact (TableMoves.of_table rfl).trans (cutComplete_tableMoves _)
    · exact base
  all_goals exact base

theorem barHomes_tableMoves (p : Part) : TableMoves p (barHomes p) := by
  have base : TableMoves p { p with pins := { p.pins with homeClosed := true, endOfStroke := false } } := .of_table rfl
  unfold barHomes
  dsimp only
  split
  · exact (base.trans (returnEnds_tableMoves _)).trans (offerRequest_tableMoves _)
  · exact (base.trans (manualEnds_tableMoves _)).trans (offerRequest_tableMoves _)
  · exact (base.trans (jamEnds_tableMoves _)).trans (offerRequest_tableMoves _)
  all_goals exact base

theorem goCutWait_tableMoves (p : Part) : TableMoves p (goCutWait p) :=
  (TableMoves.of_table (by simp)).trans (offerRequest_tableMoves _)

theorem settleCuts_tableMoves (p : Part) : TableMoves p (settleCuts p) := by
  unfold settleCuts
  split
  · exact (TableMoves.of_table rfl).trans (goCutWait_tableMoves _)
  · exact goCutWait_tableMoves p

theorem settleEnds_tableMoves (p : Part) : TableMoves p (settleEnds p) := by
  unfold settleEnds
  split
  · split
    · exact settleCuts_tableMoves p
    · split
      · exact .of_table (by simp)
      · dsimp only
        split
        · exact settleCuts_tableMoves p
        · split
          · exact goCutWait_tableMoves p
          · split
            · exact .of_table (by simp [correctToward])
            · exact settleCuts_tableMoves p
  · exact .rfl p

theorem cutNow_tableMoves (p : Part) : TableMoves p (cutNow p) := by
  have base : ∀ f, TableMoves p { p with feed := f } := fun _ => .of_table rfl
  have go : ∀ f, TableMoves p (goCutWait { p with feed := f }) := fun f => (base f).trans (goCutWait_tableMoves _)
  unfold cutNow
  dsimp only
  split
  · exact .of_table (by simp)
  · exact .of_table (by simp)
  · exact .of_table (by simp)
  · exact .of_table (by simp)
  · exact .of_table (by simp)
  · exact base _
  · exact go _
  · exact go _
  · exact go _
  · split
    · exact base _
    · exact (base _).trans (offerRequest_tableMoves _)
  · exact base _

end Sys2Proof.Machine
end

section
namespace Sys2Proof.Machine

/-! ### What a command may do to the stem table and the species -/

/-- The species records a part works with. -/
def Part.speciesTable (p : Part) : Vector Species 32 := p.store.working.species

/-- From `p` to `q` a command has acted on the stem table and the species records in one of six ways: the table has its reset state;
the records have moved; one species record has become valid, or has changed unnamed; a FREE slot has taken a record; a record has
become ACTIVE where none was; a record has been retired. -/
inductive StemStep (c : Instr) (p q : Part) : Prop
  | restarted (table : q.table = .reset)
  | moved (moves : TableMoves p q) (species : q.speciesTable = p.speciesTable)
  | relearned (k : Fin 32) (x : Species) (table : q.table = p.table)
      (species : q.speciesTable = p.speciesTable.set k.val x k.isLt) (sound : x.valid = p.speciesTable[k].valid ∨ x.valid = true ∨ p.named k = false)
  | opened (i : Fin 8) (k : Fin 32) (plans : List Planned) (valid : (p.species k).valid = true)
      (short : plans.length ≤ listLimit) (table : q.table = (p.setRecord i (some (Record.fresh k plans))).table)
      (species : q.speciesTable = p.speciesTable)
  | attached (i : Fin 8) (r : Record) (was : p.recordAt i = some r) (alone : p.hasActive = false)
      (moves : TableMoves (p.setRecord i (some r.attach)) q) (species : q.speciesTable = p.speciesTable)
  | retired (i : Fin 8) (command : c = .retireStem) (was : p.recordAt i ≠ none) (table : q.table = (retireStem i p).table)
      (species : q.speciesTable = p.speciesTable)

/-- An event that leaves the table and the working copy leaves the stem table's laws nothing to check. -/
theorem StemStep.of_same {c : Instr} {p q : Part} (ht : q.table = p.table) (hs : q.store = p.store) : StemStep c p q :=
  .moved (.of_table ht) (by rw [Part.speciesTable, hs]; rfl)

/-- The head's work on records that have moved. -/
theorem HeadWork.stemStep {c : Instr} {p q : Part} (h : HeadWork p q) (m : TableMoves p q) : StemStep c p q :=
  .moved m (by rw [Part.speciesTable, h.store]; rfl)

/-- What a command does to table and species, more than which follows without touching them. -/
theorem StemStep.then_same {c : Instr} {p q t : Part} (h : StemStep c p q) (ht : t.table = q.table) (hs : t.store = q.store) :
    StemStep c p t := by
  have hsp : t.speciesTable = q.speciesTable := by rw [Part.speciesTable, hs]; rfl
  cases h with
  | restarted table => exact .restarted (ht.trans table)
  | moved moves species => exact .moved (moves.then_table ht) (hsp.trans species)
  | relearned k x table species sound => exact .relearned k x (ht.trans table) (hsp.trans species) sound
  | opened i k plans valid short table species => exact .opened i k plans valid short (ht.trans table) (hsp.trans species)
  | attached i r was alone moves species => exact .attached i r was alone (moves.then_table ht) (hsp.trans species)
  | retired i command was table species => exact .retired i command was (ht.trans table) (hsp.trans species)

/-- The end of an event gives the whole table its reset state, or leaves table and store. -/
theorem conclude_table (b p : Part) :
    (conclude b p).table = .reset ∨ ((conclude b p).table = p.table ∧ (conclude b p).store = p.store) := by
  have f := holdTest_feedOnly (resetInBusOff p)
  rw [conclude_eq, concludeRest_eq]
  simp only [f.table, f.store]
  unfold resetInBusOff
  repeat' split
  · exact .inl rfl
  · exact .inr ⟨rfl, rfl⟩
  · exact .inr ⟨rfl, rfl⟩

theorem StemStep.concluded {c : Instr} {p q : Part} (b : Part) (h : StemStep c p q) : StemStep c p (conclude b q) := by
  rcases conclude_table b q with h' | ⟨ht, hs⟩
  · exact .restarted h'
  · exact h.then_same ht hs

theorem perform_stemStep {c : Instr} {f : Part → Part} {p : Part} (may : Bool) (h : StemStep c p (f p)) :
    StemStep c p (perform may f p) := by
  unfold perform
  split
  · exact h.concluded p
  · exact .of_same rfl rfl

theorem sense_stemStep {c : Instr} {f : Part → Part} {p : Part} (pins : Pins → Pins) (h : StemStep c p (f p)) :
    StemStep c p (sense f pins p) := by
  unfold sense
  split
  · exact h.concluded p
  · exact .of_same rfl rfl

/-- The queue and the send list are no matter of the table: what a handler does to the part it meets, it does to the part. -/
theorem StemStep.of_handed {c : Instr} {p q : Part} {rest : List (List Byte)} (h : StemStep c (p.handed rest) q) :
    StemStep c p q := by
  cases h with
  | restarted table => exact .restarted table
  | moved moves species => exact .moved moves species
  | relearned k x table species sound => exact .relearned k x table species sound
  | opened i k plans valid short table species => exact .opened i k plans valid short table species
  | attached i r was alone moves species => exact .attached i r was alone moves species
  | retired i command was table species => exact .retired i command was table species

/-- A request's row does what its handler does. -/
theorem request_stemStep {c : Instr} {need : List Byte → Nat} {handler : List Byte → Part → Reply} (code : Byte)
    (h : ∀ args p, StemStep c p (handler args p).part) (p : Part) : StemStep c p (request code need handler p) := by
  refine perform_stemStep _ ?_
  unfold serve
  split
  · next k tag args rest _ =>
    have key : StemStep c (p.handed rest) (screen k need handler args (p.handed rest)).part := by
      unfold screen
      split
      · exact .of_same rfl rfl
      · split
        · exact .of_same rfl rfl
        · exact h args _
    exact key.of_handed.then_same rfl rfl
  · exact .of_same rfl rfl

end Sys2Proof.Machine
end

section
namespace Sys2Proof.Machine

/-! ### The requests' handlers -/

/-- A refusal leaves table and species. -/
theorem refuse_stemStep (c : Instr) (a : AnswerCode) (p : Part) : StemStep c p (refuse a p).part := .of_same rfl rfl

theorem withStem_stemStep {c : Instr} {id : StemId} {p : Part} {k : Fin 8 → Record → Reply}
    (h : ∀ i r, p.recordAt i = some r → StemStep c p (k i r).part) : StemStep c p (withStem id p k).part := by
  unfold withStem
  split
  · exact refuse_stemStep c _ p
  · split
    · exact refuse_stemStep c _ p
    · next r hr => exact h _ r hr

theorem doSetProfile_stemStep (c : Instr) (args : List Byte) (p : Part) : StemStep c p (doSetProfile args p).part := by
  unfold doSetProfile
  repeat' split
  · exact refuse_stemStep c _ p
  · exact refuse_stemStep c _ p
  · exact refuse_stemStep c _ p
  · next n _ _ _ =>
    have h : ∀ q : Part, (guidanceTest (feedProfile (p.profileValue n) q)).table = q.table
        ∧ (guidanceTest (feedProfile (p.profileValue n) q)).store = q.store := fun q =>
      ⟨(guidanceTest_table _).trans (feedProfile_feedOnly _ q).table,
        (guidanceTest_headWork _).store.trans (feedProfile_feedOnly _ q).store⟩
    have r : (releaseFrame n p).table = p.table ∧ (releaseFrame n p).store = p.store := by
      unfold releaseFrame
      split <;> exact ⟨rfl, rfl⟩
    exact .of_same ((h _).1.trans r.1) ((h _).2.trans r.2)

theorem doSetFeed_stemStep (c : Instr) (args : List Byte) (p : Part) : StemStep c p (doSetFeed args p).part := by
  unfold doSetFeed
  repeat' split
  · exact refuse_stemStep c _ p
  · exact refuse_stemStep c _ p
  · exact refuse_stemStep c _ p
  · exact .of_same (feedSetValue_table _ p) (feedSetValue_feedOnly _ p).store

theorem doKnifeOverride_stemStep (c : Instr) (args : List Byte) (p : Part) : StemStep c p (doKnifeOverride args p).part := by
  unfold doKnifeOverride
  repeat' split
  all_goals exact .of_same rfl rfl

theorem markTakeover_tableMoves (p : Part) : TableMoves p (markTakeover p) := by
  unfold markTakeover
  split
  · next i _ =>
    unfold Part.mapRecord
    rcases h : p.recordAt i with _ | r
    · intro j
      refine ⟨generation_setRecord p i j _, fun x hx => ?_⟩
      rw [recordAt_setRecord] at hx
      split at hx
      · cases hx
      · exact ⟨x, hx, .rfl x⟩
    · exact .of_setRecord h (.of_sameTally rfl id rfl (.rfl _) rfl)
  · exact .rfl p

theorem markTakeover_store (p : Part) : (markTakeover p).store = p.store := by
  unfold markTakeover
  split <;> simp

theorem takeoverBegins_moves (t : Takeover) (p : Part) :
    TableMoves p (takeoverBegins t p) ∧ (takeoverBegins t p).store = p.store := by
  have f := feedTakeover_feedOnly (markTakeover { p with
    monitor := { p.monitor with takeover := t }
    saw := p.saw.takeCommand })
  have m := (TableMoves.trans (p := p) (.of_table rfl) (markTakeover_tableMoves { p with
    monitor := { p.monitor with takeover := t }
    saw := p.saw.takeCommand })).then_table f.table
  have hs := f.store.trans (markTakeover_store _)
  unfold takeoverBegins
  dsimp only
  split
  · exact ⟨m.then_table rfl, hs⟩
  · exact ⟨m, hs⟩

theorem takeoverBegins_stemStep (c : Instr) (t : Takeover) {p q : Part} (ht : q.table = p.table) (hs : q.store = p.store) :
    StemStep c p (takeoverBegins t q) :=
  .moved ((TableMoves.of_table ht).trans (takeoverBegins_moves t q).1)
    (congrArg (·.working.species) ((takeoverBegins_moves t q).2.trans hs))

theorem takeoverEnds_stemStep (c : Instr) (p : Part) : StemStep c p (takeoverEnds p) :=
  .of_same (feedSetValue_table _ _) (feedSetValue_feedOnly _ _).store

theorem releaseExpires_stemStep (c : Instr) (p : Part) : StemStep c p (releaseExpires p) := by
  unfold releaseExpires
  split
  · exact takeoverEnds_stemStep c p
  · exact .of_same rfl rfl
  · exact .of_same rfl rfl

theorem doTakeover_stemStep (c : Instr) (args : List Byte) (p : Part) : StemStep c p (doTakeover args p).part := by
  have b : StemStep c p (takeoverRequested p) := by
    unfold takeoverRequested
    split
    · exact .of_same rfl rfl
    · exact takeoverBegins_stemStep c _ rfl rfl
  have e : StemStep c p (takeoverReleased p) := by
    unfold takeoverReleased
    split
    · exact takeoverEnds_stemStep c p
    · exact .of_same rfl rfl
  unfold doTakeover
  repeat' split
  · exact refuse_stemStep c _ p
  · exact refuse_stemStep c _ p
  · exact b
  · exact e

theorem cutNow_headWork (p : Part) : HeadWork p (cutNow p) := by
  have base : ∀ f, HeadWork p { p with feed := f } := fun f => (FeedOnly.of_feed p f).headWork
  have settles : ∀ f, HeadWork p (enterFeed .settle { p with feed := f }) := fun f =>
    (base f).trans (enterFeed_feedOnly _ _).headWork
  have go : ∀ f, HeadWork p (goCutWait { p with feed := f }) := fun f => (base f).trans (goCutWait_headWork _)
  unfold cutNow
  dsimp only
  split
  · exact settles _
  · exact settles _
  · exact settles _
  · exact settles _
  · exact settles _
  · exact base _
  · exact go _
  · exact go _
  · exact go _
  · split
    · exact base _
    · exact (base _).trans (offerRequest_headWork _)
  · exact base _

theorem doCutNow_stemStep (c : Instr) (args : List Byte) (p : Part) : StemStep c p (doCutNow args p).part := by
  unfold doCutNow
  repeat' split
  any_goals exact refuse_stemStep c _ p
  exact (cutNow_headWork p).stemStep (cutNow_tableMoves p)

theorem validSpecies_spec {p : Part} {n : Nat} {k : Fin 32} (h : p.validSpecies n = some k) :
    k.val = n ∧ (p.species k).valid = true := by
  unfold Part.validSpecies at h
  split at h
  · split at h
    · next hv => cases h; exact ⟨rfl, hv⟩
    · cases h
  · cases h

theorem freeSlot_isFree {p : Part} {i : Fin 8} (h : p.freeSlot = some i) : p.recordAt i = none := by
  simpa using List.find?_some h

theorem inlinePlans_length (args : List Byte) (n : Nat) : (inlinePlans args n).length = n := by simp [inlinePlans]

theorem doOpenStem_stemStep (c : Instr) (args : List Byte) (p : Part) : StemStep c p (doOpenStem args p).part := by
  unfold doOpenStem
  split
  · exact refuse_stemStep c _ p
  · next k hk =>
    split
    · exact refuse_stemStep c _ p
    · next h4 =>
      split
      · exact refuse_stemStep c _ p
      · split
        · exact refuse_stemStep c _ p
        · next i hi =>
          exact .opened i k _ (validSpecies_spec hk).2 (by rw [inlinePlans_length, listLimit]; omega) rfl rfl

theorem attachStem_stemStep (c : Instr) {i : Fin 8} {r : Record} {p : Part} (h : p.recordAt i = some r)
    (alone : p.hasActive = false) : StemStep c p (attachStem i r p) := by
  have f := feedAttach_feedOnly { p.setRecord i (some r.attach) with
    length := p.length.attach
    diameter := p.diameter.attach
    monitor := { p.monitor with guidance := .reset } }
  refine .attached i r h alone ((TableMoves.of_table f.table).trans (arm_tableMoves i _)) ?_
  rw [Part.speciesTable, attachStem, (arm_headWork i _).store]
  exact congrArg (·.working.species) f.store

theorem doAttachStem_stemStep (c : Instr) (args : List Byte) (p : Part) : StemStep c p (doAttachStem args p).part := by
  refine withStem_stemStep fun i r hr => ?_
  repeat' split
  any_goals exact refuse_stemStep c _ p
  next h => exact attachStem_stemStep c hr (by simpa using h)

theorem finishStem_stemStep (c : Instr) {i : Fin 8} {r : Record} {p : Part} (h : p.recordAt i = some r) :
    StemStep c p (finishStem i r p) := by
  have m := TableMoves.of_setRecord h r.finish_moves
  unfold finishStem
  dsimp only
  split
  · exact ((HeadWork.of_setRecord _ _ _).trans (endPeriod_headWork _)).stemStep (m.then_table (endPeriod_table _))
  · exact (HeadWork.of_setRecord _ _ _).stemStep m

theorem doFinishStem_stemStep (c : Instr) (args : List Byte) (p : Part) : StemStep c p (doFinishStem args p).part := by
  refine withStem_stemStep fun i r hr => ?_
  repeat' split
  any_goals exact refuse_stemStep c _ p
  exact finishStem_stemStep c hr

theorem doRetireStem_stemStep (args : List Byte) (p : Part) : StemStep .retireStem p (doRetireStem args p).part := by
  refine withStem_stemStep fun i r hr => ?_
  repeat' split
  any_goals exact refuse_stemStep _ _ p
  exact .retired i rfl (by simp [hr]) rfl rfl

theorem doReadStem_stemStep (c : Instr) (args : List Byte) (p : Part) : StemStep c p (doReadStem args p).part :=
  withStem_stemStep fun _ _ _ => .of_same rfl rfl

theorem doReadEntries_stemStep (c : Instr) (args : List Byte) (p : Part) : StemStep c p (doReadEntries args p).part := by
  refine withStem_stemStep fun i r _ => ?_
  dsimp only
  repeat' split
  all_goals exact .of_same rfl rfl

theorem doAppendEntry_stemStep (c : Instr) (args : List Byte) (p : Part) : StemStep c p (doAppendEntry args p).part := by
  refine withStem_stemStep fun i r hr => ?_
  dsimp only
  repeat' split
  any_goals exact refuse_stemStep c _ p
  next hl =>
  exact ((HeadWork.of_setRecord _ _ _).trans (arm_headWork _ _)).stemStep
    ((TableMoves.of_setRecord hr (Record.appendEntry_moves _ (by simp) (by omega))).trans (arm_tableMoves _ _))

theorem insertTaken_stemStep (c : Instr) {i : Fin 8} {r : Record} {k : Nat} {st : EntryState} (plan : Planned) {p : Part}
    (h : p.recordAt i = some r) (hst : r.insertState k = some st) (hl : r.entries.length < listLimit) :
    StemStep c p (insertTaken i r k st plan p) := by
  have w := HeadWork.of_setRecord i (some (r.insertEntry k st plan)) p
  have m := TableMoves.of_setRecord h (Record.insertEntry_moves plan hst hl)
  unfold insertTaken
  dsimp only
  split
  · exact ((w.trans (handOver_headWork _ _ _)).trans (arm_headWork _ _)).stemStep
      ((m.then_table (handOver_table _ _ _)).trans (arm_tableMoves _ _))
  · exact (w.trans (arm_headWork _ _)).stemStep (m.trans (arm_tableMoves _ _))

theorem doInsertEntry_stemStep (c : Instr) (args : List Byte) (p : Part) : StemStep c p (doInsertEntry args p).part := by
  refine withStem_stemStep fun i r hr => ?_
  dsimp only
  split
  · exact refuse_stemStep c _ p
  · split
    · exact refuse_stemStep c _ p
    · split
      · exact refuse_stemStep c _ p
      · next st hst =>
        repeat' split
        any_goals exact refuse_stemStep c _ p
        next hl _ => exact insertTaken_stemStep c _ hr hst (by omega)

theorem doChangeEntry_stemStep (c : Instr) (args : List Byte) (p : Part) : StemStep c p (doChangeEntry args p).part := by
  refine withStem_stemStep fun i r hr => ?_
  dsimp only
  repeat' split
  any_goals exact refuse_stemStep c _ p
  next e _ _ _ =>
  have m := TableMoves.of_setRecord hr (r.changeEntry_moves (readU8 args 4) (readPlanned args 5))
  unfold amended changeTaken accept
  dsimp only
  split
  · exact ((HeadWork.of_setRecord _ _ _).trans (handOver_headWork _ _ _)).stemStep (m.then_table (handOver_table _ _ _))
  · exact (HeadWork.of_setRecord _ _ _).stemStep m

theorem cancelTaken_stemStep (c : Instr) {i : Fin 8} {r : Record} {k : Nat} {e : Entry} {p : Part} (h : p.recordAt i = some r)
    (he : r.reach k = some e) : StemStep c p (cancelTaken i r k e p) := by
  have m := Record.cancelEntry_moves he
  have m' := m.trans (armingTest_moves p (r.cancelEntry k))
  unfold cancelTaken
  split
  · split
    · next r' heq =>
      rw [heq] at m'
      exact ((HeadWork.of_setRecord _ _ _).trans (handOver_headWork _ _ _)).stemStep
        ((TableMoves.of_setRecord h m').then_table (handOver_table _ _ _))
    · next r' a _ heq =>
      rw [heq] at m'
      exact ((HeadWork.of_setRecord _ _ _).trans (armingHands_headWork _ _)).stemStep
        ((TableMoves.of_setRecord h m').then_table (armingHands_table _ _))
  · exact (HeadWork.of_setRecord _ _ _).stemStep (.of_setRecord h m)

theorem doCancelEntry_stemStep (c : Instr) (args : List Byte) (p : Part) : StemStep c p (doCancelEntry args p).part := by
  refine withStem_stemStep fun i r hr => ?_
  dsimp only
  split
  · exact refuse_stemStep c _ p
  · split
    · exact refuse_stemStep c _ p
    · split
      · exact refuse_stemStep c _ p
      · next e he =>
        split
        · exact refuse_stemStep c _ p
        · exact cancelTaken_stemStep c hr he

theorem doReadSpecies_stemStep (c : Instr) (args : List Byte) (p : Part) : StemStep c p (doReadSpecies args p).part := by
  unfold doReadSpecies
  split <;> exact .of_same rfl rfl

theorem setSpecies_stemStep (c : Instr) {k : Fin 32} {x : Species} {p : Part}
    (h : x.valid = (p.species k).valid ∨ x.valid = true ∨ p.named k = false) : StemStep c p (setSpecies k x p) :=
  .relearned k x rfl rfl h

theorem doWriteSpecies_stemStep (c : Instr) (args : List Byte) (p : Part) : StemStep c p (doWriteSpecies args p).part := by
  unfold doWriteSpecies
  repeat' split
  any_goals exact refuse_stemStep c _ p
  exact setSpecies_stemStep c (.inr (.inl rfl))

theorem doClearSpecies_stemStep (c : Instr) (args : List Byte) (p : Part) : StemStep c p (doClearSpecies args p).part := by
  unfold doClearSpecies
  repeat' split
  any_goals exact refuse_stemStep c _ p
  next h => exact setSpecies_stemStep c (.inr (.inr (by simpa using h)))

theorem calibrated_valid {s new : Species} {x : Results} {l : Option Int} {d : Option Nat}
    (h : calibrated s x l d = .inr new) : new.valid = s.valid := by
  unfold calibrated at h
  dsimp only at h
  repeat' split at h
  all_goals first | cases h; rfl | cases h

theorem doCalibrate_stemStep (c : Instr) (args : List Byte) (p : Part) : StemStep c p (doCalibrate args p).part := by
  refine withStem_stemStep fun i r _ => ?_
  repeat' split
  any_goals exact refuse_stemStep c _ p
  unfold calibrateEntry
  split
  · exact refuse_stemStep c _ p
  · next new hn => exact setSpecies_stemStep c (.inl (calibrated_valid hn))

theorem doReadSetting_stemStep (c : Instr) (args : List Byte) (p : Part) : StemStep c p (doReadSetting args p).part := by
  unfold doReadSetting
  split <;> exact .of_same rfl rfl

end Sys2Proof.Machine
end

section
namespace Sys2Proof.Machine

/-! ### Settings, the link, the sensors -/

@[simp] theorem setSetting_table (n : Fin 40) (v : Int) (p : Part) : (setSetting n v p).table = p.table := rfl

/-- What a changed setting does at once moves records at most as the saw and the takeover move them. -/
theorem settingActs_moves (n : Fin 40) (p : Part) : TableMoves p (settingActs n p) ∧ (settingActs n p).store = p.store := by
  have line : ∀ (l : Line) (u : LineUnit), TableMoves p (p.setLine l u) ∧ (p.setLine l u).store = p.store :=
    fun _ _ => ⟨.of_table rfl, rfl⟩
  have same : TableMoves p p ∧ p.store = p.store := ⟨.rfl p, rfl⟩
  have enable : ∀ l, TableMoves p (lineEnableWritten l p) ∧ (lineEnableWritten l p).store = p.store := fun l => by
    unfold lineEnableWritten
    split <;> exact line _ _
  have window : ∀ l, TableMoves p (lineWindowWritten l p) ∧ (lineWindowWritten l p).store = p.store := fun l => by
    unfold lineWindowWritten
    split
    · exact same
    · exact line _ _
  have snoop : TableMoves p (snoopWritten p) ∧ (snoopWritten p).store = p.store := by
    unfold snoopWritten
    split <;> exact ⟨.of_table rfl, rfl⟩
  have release : TableMoves p (releaseExpires p) ∧ (releaseExpires p).store = p.store := by
    unfold releaseExpires takeoverEnds
    split
    · exact ⟨.of_table (feedSetValue_table _ _), (feedSetValue_feedOnly _ _).store⟩
    · exact same
    · exact same
  unfold settingActs
  split
  · exact enable .ka
  split
  · exact enable .kb
  split
  · exact enable .rl
  split
  · exact window .ka
  split
  · exact window .kb
  split
  · exact window .rl
  split
  · split
    · exact ⟨cutTimesOut_tableMoves p, (cutTimesOut_headWork p).store⟩
    · exact same
  split
  · split
    · exact ⟨returnTimesOut_tableMoves p, (returnTimesOut_headWork p).store⟩
    · exact same
  split
  · exact snoop
  split
  · split
    · exact release
    · exact same
  · exact same

theorem writeSetting_stemStep (c : Instr) (n : Fin 40) (v : Int) (p : Part) : StemStep c p (writeSetting n v p) := by
  unfold writeSetting
  split
  · exact .of_same rfl rfl
  · obtain ⟨m, hs⟩ := settingActs_moves n (setSetting n v p)
    exact .moved ((TableMoves.of_table (setSetting_table n v p)).trans m) (congrArg (·.working.species) hs)

theorem doWriteSetting_stemStep (c : Instr) (args : List Byte) (p : Part) : StemStep c p (doWriteSetting args p).part := by
  unfold doWriteSetting
  repeat' split
  any_goals exact refuse_stemStep c _ p
  next n _ _ _ _ =>
  have w := writeSetting_stemStep c n (readI16 args 1) p
  unfold settingTaken accept refreshCompare
  dsimp only
  repeat' split
  · exact w.then_same rfl rfl
  · exact w
  · exact w

theorem doStore_stemStep (c : Instr) (args : List Byte) (p : Part) : StemStep c p (doStore args p).part := by
  unfold doStore
  split
  · exact refuse_stemStep c _ p
  · exact .moved (.of_table rfl) rfl

theorem doReset_stemStep (c : Instr) (args : List Byte) (p : Part) : StemStep c p (doReset args p).part := by
  unfold doReset
  split <;> exact .of_same rfl rfl

theorem frameSent_stemStep (c : Instr) (p : Part) : StemStep c p (frameSent p) := by
  have item : ∀ (i : SendItem) (l : List SendItem) (q : Part), q.table = p.table → q.store = p.store →
      StemStep c p (itemSent i l q) := fun i l q ht hs => by
    unfold itemSent
    dsimp only
    split
    · split
      · exact .restarted rfl
      · exact .of_same ht hs
    · exact .of_same ht hs
  unfold frameSent
  split
  · exact .of_same rfl rfl
  · exact .of_same rfl rfl
  · exact item _ _ p rfl rfl
  · dsimp only
    repeat' split
    · exact .of_same rfl rfl
    · exact item _ _ p rfl rfl
    · exact .of_same rfl rfl
    · exact item _ _ _ rfl rfl

theorem transmitFails_stemStep (c : Instr) (p : Part) : StemStep c p (transmitFails p) := by
  unfold transmitFails
  dsimp only
  split
  · exact .of_same (feedSetValue_table _ _) (feedSetValue_feedOnly _ _).store
  · exact .of_same rfl rfl

theorem stickArrives_stemStep (c : Instr) (f : BusFrame) (p : Part) : StemStep c p (stickArrives f p) := by
  unfold stickArrives stickDecoded
  dsimp only
  split
  · split
    · exact takeoverBegins_stemStep c _ rfl rfl
    · exact .of_same rfl rfl
    · exact .of_same rfl rfl
  · exact .of_same rfl rfl

theorem powerUp_stemStep (c : Instr) (straps : BitVec 2) (p : Part) : StemStep c p (powerUp straps p) := by
  refine .restarted ?_
  unfold powerUp
  rcases conclude_table p (if p.store.cutOff.sound then _ else _) with h | ⟨h, -⟩
  · exact h
  · refine h.trans ?_
    split <;> rfl

theorem deadlinePasses_stemStep (c : Instr) (p : Part) : StemStep c p (deadlinePasses p) := by
  have line : ∀ l q, (lineDeadline l q).table = q.table ∧ (lineDeadline l q).store = q.store := fun l q => by
    unfold lineDeadline
    split <;> exact ⟨rfl, rfl⟩
  unfold deadlinePasses
  exact .of_same (((line _ _).1.trans (line _ _).1).trans (line _ _).1) (((line _ _).2.trans (line _ _).2).trans (line _ _).2)

theorem lineOutExpires_stemStep (c : Instr) (l : Line) (p : Part) : StemStep c p (lineOutExpires l p) := by
  unfold lineOutExpires
  split <;> exact .of_same rfl rfl

theorem lineInExpires_stemStep (c : Instr) (l : Line) (p : Part) : StemStep c p (lineInExpires l p) := by
  unfold lineInExpires
  split <;> exact .of_same rfl rfl

theorem lineReads_stemStep (c : Instr) (l : Line) (x : BitVec 12) (p : Part) : StemStep c p (lineReads l x p) := by
  unfold lineReads
  dsimp only
  split <;> exact .of_same rfl rfl

theorem contactLevel_stemStep (c : Instr) (closed : Bool) (p : Part) : StemStep c p (contactLevel closed p) := by
  unfold contactLevel
  split <;> exact .of_same rfl rfl

theorem endSensorLevel_stemStep (c : Instr) (covered : Bool) (p : Part) : StemStep c p (endSensorLevel covered p) := by
  unfold endSensorLevel
  split <;> exact .of_same rfl rfl

theorem gripSample_headWork (p : Part) : HeadWork p (gripSample p) := by
  unfold gripSample
  split
  · dsimp only
    split
    · exact (HeadWork.of_diameter p _).trans (takeSample_headWork _)
    · exact .of_diameter p _
  · exact .rfl p

theorem gripSample_table (p : Part) : (gripSample p).table = p.table := by
  unfold gripSample
  split
  · dsimp only
    split
    · exact takeSample_table _
    · rfl
  · rfl

theorem CountWork.stemStep {c : Instr} {p q : Part} (h : CountWork p q) (m : TableMoves p q) : StemStep c p q :=
  .moved m (by rw [Part.speciesTable, HeadWork.store h]; rfl)

theorem storeCompletes_stemStep (c : Instr) (held : Bool) (p : Part) : StemStep c p (storeCompletes held p) := by
  unfold storeCompletes
  dsimp only
  split <;> exact .moved (.of_table rfl) rfl

theorem requestArrives_stemStep (c : Instr) (f : BusFrame) (p : Part) : StemStep c p (requestArrives f p) := by
  unfold requestArrives
  split <;> exact .of_same rfl rfl

theorem serveBad_stemStep (c : Instr) (p : Part) : StemStep c p (serveBad p) := by
  unfold serveBad
  split <;> exact .of_same rfl rfl

/-! ### The saw's switches and timers -/

/-- The store that an operation of the head's work over other pin levels leaves. -/
theorem HeadWork.stemStep_pins {c : Instr} {p q : Part} {pins : Pins} (h : HeadWork { p with pins } q) (m : TableMoves p q) :
    StemStep c p q := .moved m (by rw [Part.speciesTable, h.store]; rfl)

theorem manualEnds_headWork (p : Part) : HeadWork p (manualEnds p) := by
  unfold manualEnds
  repeat' split
  · exact sawParks_headWork p
  · exact sawParks_headWork p
  · exact (cutAbort_headWork p).trans (sawFaults_headWork _)
  · exact (cutAbort_headWork p).trans (sawParks_headWork _)

theorem jamEnds_headWork (p : Part) : HeadWork p (jamEnds p) := by
  unfold jamEnds
  split
  · exact sawFaults_headWork p
  · exact sawFaults_headWork p
  · exact sawParks_headWork p
  · exact sawParks_headWork p

/-- The home switch's closing, once its level is taken. -/
theorem barHomes_headWork (p : Part) :
    HeadWork { p with pins := { p.pins with homeClosed := true, endOfStroke := false } } (barHomes p) := by
  unfold barHomes
  dsimp only
  split
  · exact (returnEnds_headWork _).trans (offerRequest_headWork _)
  · exact (manualEnds_headWork _).trans (offerRequest_headWork _)
  · exact (jamEnds_headWork _).trans (offerRequest_headWork _)
  all_goals exact .rfl _

/-- The home switch's opening, once its level is taken. -/
theorem barLeaves_headWork (p : Part) :
    HeadWork { p with pins := { p.pins with homeClosed := false } } (barLeaves p) := by
  unfold barLeaves
  dsimp only
  split
  · exact ((HeadWork.of_saw _ _).trans (feedSawLeft_feedOnly _).headWork).trans (cutStart_headWork _ _)
  · exact .rfl _

/-- The end of stroke, once its level is taken. -/
theorem strokeEnds_headWork (p : Part) :
    HeadWork { p with pins := { p.pins with endOfStroke := true } } (strokeEnds p) := by
  unfold strokeEnds
  dsimp only
  split
  · exact strokeCompletes_headWork _
  · split
    · split
      · exact .rfl _
      · exact (HeadWork.of_saw _ _).trans (cutComplete_headWork _)
    · exact .rfl _
  all_goals exact .rfl _

/-! ### Every command -/

/-- What a command does to the stem table and the species records. -/
theorem exec_stemStep {c : Instr} {s s' : State} (h : exec c s = .next s') : StemStep c s.part s'.part := by
  have on : ∀ f : Part → Part, s.on f = .next s' → StemStep c s.part (f s.part) → StemStep c s.part s'.part := by
    intro f e k
    obtain rfl := Host.Outcome.next.inj e
    exact k
  cases c with
  | powerOn straps => exact on _ h (powerUp_stemStep _ straps _)
  | requestFrame f => exact on _ h (perform_stemStep _ (requestArrives_stemStep _ f _))
  | badRequest => exact on _ h (perform_stemStep _ (serveBad_stemStep _ _))
  | status => exact on _ h (request_stemStep _ (fun _ _ => .of_same rfl rfl) _)
  | readConditions => exact on _ h (request_stemStep _ (fun _ _ => .of_same rfl rfl) _)
  | setMasks => exact on _ h (request_stemStep _ (fun _ _ => .of_same rfl rfl) _)
  | setProfile => exact on _ h (request_stemStep _ (doSetProfile_stemStep _) _)
  | setFeed => exact on _ h (request_stemStep _ (doSetFeed_stemStep _) _)
  | knifeOverride => exact on _ h (request_stemStep _ (doKnifeOverride_stemStep _) _)
  | takeover => exact on _ h (request_stemStep _ (doTakeover_stemStep _) _)
  | cutNow => exact on _ h (request_stemStep _ (doCutNow_stemStep _) _)
  | openStem => exact on _ h (request_stemStep _ (doOpenStem_stemStep _) _)
  | attachStem => exact on _ h (request_stemStep _ (doAttachStem_stemStep _) _)
  | finishStem => exact on _ h (request_stemStep _ (doFinishStem_stemStep _) _)
  | retireStem => exact on _ h (request_stemStep _ doRetireStem_stemStep _)
  | readStem => exact on _ h (request_stemStep _ (doReadStem_stemStep _) _)
  | readEntries => exact on _ h (request_stemStep _ (doReadEntries_stemStep _) _)
  | appendEntry => exact on _ h (request_stemStep _ (doAppendEntry_stemStep _) _)
  | insertEntry => exact on _ h (request_stemStep _ (doInsertEntry_stemStep _) _)
  | changeEntry => exact on _ h (request_stemStep _ (doChangeEntry_stemStep _) _)
  | cancelEntry => exact on _ h (request_stemStep _ (doCancelEntry_stemStep _) _)
  | readSpecies => exact on _ h (request_stemStep _ (doReadSpecies_stemStep _) _)
  | writeSpecies => exact on _ h (request_stemStep _ (doWriteSpecies_stemStep _) _)
  | clearSpecies => exact on _ h (request_stemStep _ (doClearSpecies_stemStep _) _)
  | calibrate => exact on _ h (request_stemStep _ (doCalibrate_stemStep _) _)
  | readSetting => exact on _ h (request_stemStep _ (doReadSetting_stemStep _) _)
  | writeSetting => exact on _ h (request_stemStep _ (doWriteSetting_stemStep _) _)
  | store => exact on _ h (request_stemStep _ (doStore_stemStep _) _)
  | storeCompletion held => exact on _ h (perform_stemStep _ (storeCompletes_stemStep _ held _))
  | reset => exact on _ h (request_stemStep _ (doReset_stemStep _) _)
  | startupDeadline => exact on _ h (perform_stemStep _ (deadlinePasses_stemStep _ _))
  | frameTransmitted => exact on _ h (perform_stemStep _ (frameSent_stemStep _ _))
  | transmitError => exact on _ h (perform_stemStep _ (transmitFails_stemStep _ _))
  | busOffRecovery => exact on _ h (perform_stemStep _ (.of_same rfl rfl))
  | valveRefreshExpiry => exact on _ h (perform_stemStep _ (.of_same rfl rfl))
  | stickFrame f => exact on _ h (perform_stemStep _ (stickArrives_stemStep _ f _))
  | takeoverReleaseExpiry => exact on _ h (perform_stemStep _ (releaseExpires_stemStep _ _))
  | advanceExpectationExpiry => exact on _ h (perform_stemStep _ (.of_same rfl rfl))
  | wheelCount forward =>
    exact on _ h (perform_stemStep _ ((wheelCounts_countWork forward _).stemStep (wheelCounts_tableMoves forward _)))
  | rollerCount forward =>
    exact on _ h (perform_stemStep _ ((rollerCounts_countWork forward _).stemStep (rollerCounts_tableMoves forward _)))
  | wheelContactSwitch closed => exact on _ h (sense_stemStep _ (contactLevel_stemStep _ closed _))
  | endSensorChange covered => exact on _ h (sense_stemStep _ (endSensorLevel_stemStep _ covered _))
  | gripSampleExpiry =>
    exact on _ h (perform_stemStep _ ((gripSample_headWork _).stemStep (.of_table (gripSample_table _))))
  | armLineReading l x => exact on _ h (sense_stemStep _ (lineReads_stemStep _ l x _))
  | lineOutOfWindowExpiry l => exact on _ h (perform_stemStep _ (lineOutExpires_stemStep _ l _))
  | lineInWindowExpiry l => exact on _ h (perform_stemStep _ (lineInExpires_stemStep _ l _))
  | dropTimerExpiry =>
    exact on _ h (perform_stemStep _ ((dropReport_headWork _).stemStep (dropReport_tableMoves _)))
  | settleTimerExpiry =>
    exact on _ h (perform_stemStep _ ((settleEnds_headWork _).stemStep (settleEnds_tableMoves _)))
  | stallTimerExpiry =>
    exact on _ h (perform_stemStep _ (.of_same (stallOutcome_feedOnly _).table (stallOutcome_feedOnly _).store))
  | barLeavesHome => exact on _ h (sense_stemStep _ ((barLeaves_headWork _).stemStep_pins (barLeaves_tableMoves _)))
  | endOfStroke => exact on _ h (sense_stemStep _ ((strokeEnds_headWork _).stemStep_pins (strokeEnds_tableMoves _)))
  | barHome => exact on _ h (sense_stemStep _ ((barHomes_headWork _).stemStep_pins (barHomes_tableMoves _)))
  | cutTimerExpiry =>
    exact on _ h (perform_stemStep _ ((cutTimesOut_headWork _).stemStep (cutTimesOut_tableMoves _)))
  | returnTimerExpiry =>
    exact on _ h (perform_stemStep _ ((returnTimesOut_headWork _).stemStep (returnTimesOut_tableMoves _)))
  | lossOfPower => exact on _ h (.moved (.of_table rfl) rfl)

/-- What a step does to the stem table and the species records: a command's work, or a millisecond's, which is none. -/
theorem step_stemStep {s s' : State} (h : step s = .next s') : ∃ c, StemStep c s.part s'.part := by
  unfold step at h
  split at h
  · unfold idle at h
    split at h
    · next c _ => exact ⟨c, exec_stemStep h⟩
    · obtain rfl := Host.Outcome.next.inj h
      refine ⟨.status, ?_⟩
      dsimp only
      unfold millisecond
      split
      · exact .moved (.of_table rfl) rfl
      · exact .of_same rfl rfl
  · next c rest _ => exact ⟨c, exec_stemStep (s := { s with pending := rest }) h⟩

/-! ### The laws that every step keeps -/

theorem Record.fresh_totalled (k : Fin 32) (plans : List Planned) : (Record.fresh k plans).totalled := by
  have open_ : ∀ e ∈ (Record.fresh k plans).entries, e.counted = 0 ∧ e.isLog = 0 := by
    intro e he
    obtain ⟨n, hn, rfl⟩ := List.mem_mapIdx.mp he
    exact ⟨rfl, rfl⟩
  refine ⟨?_, ?_⟩
  · rw [List.map_congr_left fun e he => (open_ e he).1]
    simp [Record.fresh]
  · rw [List.map_congr_left fun e he => (open_ e he).2]
    simp [Record.fresh]

/-- No record stands in a table that has its reset state. -/
theorem recordAt_of_reset {p : Part} (h : p.table = .reset) (i : Fin 8) : p.recordAt i = none := by
  simp [Part.recordAt, h, Table.reset]

theorem recordAt_retireStem (p : Part) (i j : Fin 8) :
    (retireStem i p).recordAt j = if i = j then none else p.recordAt j := by
  unfold Part.recordAt retireStem
  split
  · next h => simp [h]
  · next h =>
    have hv : i.val ≠ j.val := fun e => h (Fin.ext e)
    simp [hv]

/-- Where a law speaks of one record at a time, every command keeps it that keeps it of records that move, of fresh records and of
records that are attached. -/
theorem StemStep.keeps {c : Instr} {p q : Part} (h : StemStep c p q) (law : Record → Prop)
    (moves : ∀ r r', RecordMoves r r' → law r → law r') (fresh : ∀ k plans, plans.length ≤ listLimit → law (Record.fresh k plans))
    (attach : ∀ r, law r → law r.attach) (hp : ∀ i r, p.recordAt i = some r → law r) :
    ∀ i r, q.recordAt i = some r → law r := by
  intro i r hr
  cases h with
  | restarted table => rw [recordAt_of_reset table] at hr; cases hr
  | moved m _ =>
    obtain ⟨r₀, h₀, m₀⟩ := (m i).2 r hr
    exact moves _ _ m₀ (hp i r₀ h₀)
  | relearned k x table _ _ => exact hp i r (by rwa [Part.recordAt, table] at hr)
  | opened j k plans _ short table _ =>
    rw [Part.recordAt, table] at hr
    rcases eq_or_ne j i with rfl | hj
    · obtain rfl := Option.some.inj ((recordAt_setRecord_self p j _).symm.trans hr)
      exact fresh k plans short
    · exact hp i r ((recordAt_setRecord_ne p hj _).symm.trans hr)
  | attached j r₁ was _ m _ =>
    obtain ⟨r₀, h₀, m₀⟩ := (m i).2 r hr
    refine moves _ _ m₀ ?_
    rcases eq_or_ne j i with rfl | hj
    · obtain rfl := Option.some.inj ((recordAt_setRecord_self p j _).symm.trans h₀)
      exact attach r₁ (hp j r₁ was)
    · exact hp i r₀ ((recordAt_setRecord_ne p hj _).symm.trans h₀)
  | retired j _ _ table _ =>
    rw [Part.recordAt, table] at hr
    have hr' := (recordAt_retireStem p j i).symm.trans hr
    split at hr'
    · cases hr'
    · exact hp i r hr'

theorem StemStep.listsBounded {c : Instr} {p q : Part} (h : StemStep c p q) (k : ListsBounded p) : ListsBounded q :=
  h.keeps (fun r => r.entries.length ≤ listLimit) (fun _ _ m => m.bounded) (fun k plans hs => by simpa [Record.fresh] using hs)
    (fun _ => id) k

theorem StemStep.totalsAgree {c : Instr} {p q : Part} (h : StemStep c p q) (k : TotalsAgree p) : TotalsAgree q :=
  h.keeps Record.totalled (fun _ _ m => m.totalled) (fun k plans _ => Record.fresh_totalled k plans) (fun _ => id) k

theorem isActive_iff (p : Part) (i : Fin 8) : p.isActive i = true ↔ ∃ r, p.recordAt i = some r ∧ r.state = .active := by
  unfold Part.isActive
  rcases p.recordAt i with _ | r <;> simp

theorem TableMoves.isActive {p q : Part} (m : TableMoves p q) {i : Fin 8} (h : q.isActive i = true) : p.isActive i = true := by
  obtain ⟨r', hr', ha⟩ := (isActive_iff q i).mp h
  obtain ⟨r, hr, mr⟩ := (m i).2 r' hr'
  exact (isActive_iff p i).mpr ⟨r, hr, mr.active ha⟩

/-- A part whose ACTIVE slots are ACTIVE in one that has at most one. -/
theorem OneActive.of_isActive {p q : Part} (h : OneActive p) (k : ∀ i, q.isActive i = true → p.isActive i = true) :
    OneActive q := fun i j hi hj => h i j (k i hi) (k j hj)

theorem hasActive_false {p : Part} (h : p.hasActive = false) (i : Fin 8) : p.isActive i = false :=
  isActive_of_none (by simpa [Part.hasActive] using h) i

theorem StemStep.oneActive {c : Instr} {p q : Part} (h : StemStep c p q) (k : OneActive p) : OneActive q := by
  cases h with
  | restarted table => intro i j hi; simp [Part.isActive, recordAt_of_reset table] at hi
  | moved m _ => exact k.of_isActive fun i => m.isActive
  | relearned _ _ table _ _ => exact k.of_isActive fun i hi => by rwa [Part.isActive, Part.recordAt, table] at hi
  | opened j n plans _ _ table _ =>
    refine k.of_isActive fun i hi => ?_
    obtain ⟨r, hr, ha⟩ := (isActive_iff q i).mp hi
    rw [Part.recordAt, table] at hr
    rcases eq_or_ne j i with rfl | hj
    · obtain rfl := Option.some.inj ((recordAt_setRecord_self p j _).symm.trans hr)
      simp [Record.fresh] at ha
    · exact (isActive_iff p i).mpr ⟨r, (recordAt_setRecord_ne p hj _).symm.trans hr, ha⟩
  | attached j r _ alone m _ =>
    have only : ∀ i, q.isActive i = true → i = j := fun i hi => by
      by_contra hij
      obtain ⟨x, hx, ha⟩ := (isActive_iff _ i).mp (m.isActive hi)
      rw [recordAt_setRecord_ne p (Ne.symm hij)] at hx
      have := (isActive_iff p i).mpr ⟨x, hx, ha⟩
      rw [hasActive_false alone i] at this
      cases this
    exact fun i i' hi hi' => (only i hi).trans (only i' hi').symm
  | retired j _ _ table _ =>
    refine k.of_isActive fun i hi => ?_
    obtain ⟨r, hr, ha⟩ := (isActive_iff q i).mp hi
    rw [Part.recordAt, table] at hr
    have hr' := (recordAt_retireStem p j i).symm.trans hr
    split at hr'
    · cases hr'
    · exact (isActive_iff p i).mpr ⟨r, hr', ha⟩

theorem named_of_recordAt {p : Part} {i : Fin 8} {r : Record} (h : p.recordAt i = some r) : p.named r.species = true := by
  unfold Part.named
  exact List.any_eq_true.mpr ⟨i, mem_slotList i, by simp [h]⟩

theorem StemStep.speciesNamedValid {c : Instr} {p q : Part} (h : StemStep c p q) (k : SpeciesNamedValid p) :
    SpeciesNamedValid q := by
  have valid : ∀ {t : Part} (n : Fin 32), t.speciesTable = p.speciesTable → (t.species n).valid = (p.species n).valid :=
    fun n e => by
      unfold Part.species
      unfold Part.speciesTable at e
      rw [e]
  cases h with
  | relearned n x table species sound =>
    intro i r hr
    have hr' : p.recordAt i = some r := by rwa [Part.recordAt, table] at hr
    have old := k i r hr'
    unfold Part.species
    unfold Part.speciesTable at species
    rw [species]
    rcases eq_or_ne n r.species with rfl | hn
    · simp only [Fin.getElem_fin, Vector.getElem_set_self]
      rcases sound with e | e | e
      · exact e.trans old
      · exact e
      · rw [named_of_recordAt hr'] at e; cases e
    · have hv : n.val ≠ r.species.val := fun e => hn (Fin.ext e)
      simpa [hv, Part.species] using old
  | restarted table => intro i r hr; rw [recordAt_of_reset table] at hr; cases hr
  | moved m species =>
    intro i r hr
    obtain ⟨r₀, h₀, m₀⟩ := (m i).2 r hr
    rw [valid _ species, m₀.species]
    exact k i r₀ h₀
  | opened j n plans hv short table species =>
    intro i r hr
    rw [valid _ species]
    rw [Part.recordAt, table] at hr
    rcases eq_or_ne j i with rfl | hj
    · obtain rfl := Option.some.inj ((recordAt_setRecord_self p j _).symm.trans hr)
      exact hv
    · exact k i r ((recordAt_setRecord_ne p hj _).symm.trans hr)
  | attached j r₁ was _ m species =>
    intro i r hr
    obtain ⟨r₀, h₀, m₀⟩ := (m i).2 r hr
    rw [valid _ species, m₀.species]
    rcases eq_or_ne j i with rfl | hj
    · obtain rfl := Option.some.inj ((recordAt_setRecord_self p j _).symm.trans h₀)
      exact k j r₁ was
    · exact k i r₀ ((recordAt_setRecord_ne p hj _).symm.trans h₀)
  | retired j _ _ table species =>
    intro i r hr
    rw [valid _ species]
    rw [Part.recordAt, table] at hr
    have hr' := (recordAt_retireStem p j i).symm.trans hr
    split at hr'
    · cases hr'
    · exact k i r hr'

/-- Settles O55: a step is one of the six ways of `StemStep`, and each of them keeps the three laws. -/
theorem everyStepKeepsTheStemTableLaws : Obligations.EveryStepKeepsTheStemTableLaws := by
  intro s s' one lists species h
  obtain ⟨c, k⟩ := step_stemStep h
  exact ⟨k.oneActive one, k.listsBounded lists, k.speciesNamedValid species⟩

/-- Settles O56: a step is one of the six ways of `StemStep`, and each of them keeps a record's totals in agreement. -/
theorem everyStepKeepsTheTotals : Obligations.EveryStepKeepsTheTotals := by
  intro s s' totals h
  obtain ⟨c, k⟩ := step_stemStep h
  exact k.totalsAgree totals

end Sys2Proof.Machine
end

section
namespace Sys2Proof.Machine

/-! ### The reset state -/

theorem reset_recordAt (i : Fin 8) : State.reset.part.recordAt i = none := recordAt_of_reset rfl i

theorem builtIn_species (k : Fin 32) : Copy.builtIn.species[k] = Species.builtIn (k == 0) := by
  revert k
  decide

theorem builtIn_inRange : Copy.builtIn.inRange := by
  refine ⟨by decide, fun k => ?_⟩
  rw [builtIn_species]
  rcases k == 0 <;> decide

theorem reset_quiet : Quiet State.reset.part where
  pending := .inl rfl
  holds := rfl
  drop := rfl
  slip := rfl
  ready := by decide
  knife := by decide
  image := by decide
  refresh _ := rfl
  list := rfl

/-- Settles O60: with no record in any slot the table's laws are empty, and the rest is read off the reset values. -/
theorem resetMeetsTheInvariants : Obligations.ResetMeetsTheInvariants := by
  have none_ : ∀ {i r}, State.reset.part.recordAt i ≠ some r := fun {i r} h => by rw [reset_recordAt] at h; cases h
  refine ⟨fun _ => reset_quiet.settled, fun i j hi => ?_, fun _ _ h => absurd h none_, fun _ _ h => absurd h none_,
    fun _ _ h => absurd h none_, ⟨?_, ?_⟩, ⟨builtIn_inRange, fun _ => builtIn_inRange⟩, ?_⟩
  · obtain ⟨r, hr, -⟩ := (isActive_iff _ i).mp hi
    exact absurd hr none_
  · rintro (h | h) <;> cases h
  · intro h; exact absurd rfl h
  · exact ⟨by decide, by decide, fun h => absurd h (by decide)⟩

/-! ### Requests: refused, answered, and those that only read -/

/-- A row of a request of the part is in the list of its codes. -/
theorem runs_request {code : Byte} (h : code ∈ requestCodes) {s : State} {q : Part}
    (k : request code (argLength code) (handlerOf code) s.part = q) : Runs (requestRow code) s q := by
  unfold Runs
  rw [exec_requestRow h, State.on, k]

theorem refusal_handed (p : Part) (rest : List (List Byte)) (code : Byte) (args : List Byte) :
    (p.handed rest).refusal code args = p.refusal code args := rfl

/-- What a taken request comes to: the handler's part, answered, and the end of the event. -/
theorem request_granted {p : Part} {code tag : Byte} {args : List Byte} {rest : List (List Byte)}
    (h : p.granted code tag args rest) (hc : code ∈ requestCodes) :
    request code (argLength code) (handlerOf code) p = conclude p (answered p.link.sendList
      (okAnswer code tag (handlerOf code args (p.handed rest)).results) (handlerOf code args (p.handed rest)).part) := by
  obtain ⟨ho, hn, hr⟩ := h
  rw [request_offers (handlerOf code) ho hn]
  have ok := handlerOf_answers hc args (p.handed rest)
  rw [refusal_handed, hr] at ok
  have ok' : (handlerOf code args (p.handed rest)).answer = .ok := ok
  simp [Reply.toAnswer, okAnswer, ok']

theorem Quiet.took {p : Part} (h : Quiet p) (rest : List (List Byte)) : Quiet (p.took rest) :=
  ⟨h.pending, h.holds, h.drop, h.slip, h.ready, h.knife, h.image, h.refresh, h.list⟩

/-- A granted request whose handler changes nothing: its answer joins the send list, and that is all. -/
theorem granted_reads {s : State} {code tag : Byte} {args : List Byte} {rest : List (List Byte)} {results : List Byte}
    (hs : Settled s.part) (h : s.part.granted code tag args rest) (hc : code ∈ requestCodes)
    (hh : handlerOf code args (s.part.handed rest) = accept results (s.part.handed rest)) :
    Runs (requestRow code) s (s.part.withAnswer (okAnswer code tag results) rest) := by
  refine runs_request hc ?_
  rw [request_granted h hc, hh]
  obtain ⟨⟨⟨hon, -, hl, -⟩, -⟩, -⟩ := h
  exact conclude_refused (hs.quiet hon) _ rest hl

end Sys2Proof.Machine
end

section
namespace Sys2Proof.Machine

/-! ### What an operation raises and places -/

/-- From `p` to `q` an operation has left start-up and reset alone, has raised no conditions but those named, and has placed its
notices behind what stood on the send list. -/
structure Works (cs : List Condition) (p q : Part) : Prop where
  boot : q.boot = p.boot
  raises : RaisesOnly cs p q
  list : p.link.sendList <+: q.link.sendList

theorem RaisesOnly.of_conditions {cs : List Condition} {p q : Part} (h : q.link.conditions = p.link.conditions) :
    RaisesOnly cs p q := fun c => by
  unfold Part.raised
  rw [h]
  exact ⟨fun _ => id, fun _ => rfl⟩

theorem RaisesOnly.trans {cs : List Condition} {p q t : Part} (h : RaisesOnly cs p q) (k : RaisesOnly cs q t) :
    RaisesOnly cs p t := fun c =>
  ⟨fun hc hp => (k c).1 hc ((h c).1 hc hp), fun hc => ((k c).2 hc).trans ((h c).2 hc)⟩

theorem RaisesOnly.mono {cs ds : List Condition} {p q : Part} (h : RaisesOnly cs p q) (k : cs ⊆ ds) : RaisesOnly ds p q :=
  fun c => ⟨fun _ hp => if hc : c ∈ cs then (h c).1 hc hp else ((h c).2 hc).trans hp,
    fun hc => (h c).2 fun hc' => hc (k hc')⟩

/-- The bit of a condition in the word of another. -/
theorem word_getLsbD (c d : Condition) : c.word.getLsbD d.bit = decide (c = d) := by
  cases c <;> cases d <;> rfl

/-- Raising a condition sets its bit and no other. -/
@[simp] theorem raised_raise (c d : Condition) (p : Part) : (raise c p).raised d = (p.raised d || decide (c = d)) := by
  unfold Part.raised raise
  simp [word_getLsbD]

theorem RaisesOnly.of_raise {cs : List Condition} {c : Condition} (h : c ∈ cs) (p : Part) : RaisesOnly cs p (raise c p) :=
  fun d => ⟨fun _ hp => by simp [hp], fun hd => by
    have : c ≠ d := fun e => hd (e ▸ h)
    simp [this]⟩

theorem raise_list (c : Condition) (p : Part) : p.link.sendList <+: (raise c p).link.sendList := by
  unfold raise
  dsimp only
  split
  · exact List.prefix_rfl
  · exact List.prefix_append _ _

theorem Works.of_same {cs : List Condition} {p q : Part} (hb : q.boot = p.boot) (hl : q.link = p.link) : Works cs p q :=
  ⟨hb, .of_conditions (by rw [hl]), by rw [hl]⟩

protected theorem Works.rfl (cs : List Condition) (p : Part) : Works cs p p := .of_same rfl rfl

theorem Works.trans {cs : List Condition} {p q t : Part} (h : Works cs p q) (k : Works cs q t) : Works cs p t :=
  ⟨k.boot.trans h.boot, h.raises.trans k.raises, h.list.trans k.list⟩

theorem Works.mono {cs ds : List Condition} {p q : Part} (h : Works cs p q) (k : cs ⊆ ds) : Works ds p q :=
  ⟨h.boot, h.raises.mono k, h.list⟩

/-- Work on a part that differs in neither start-up nor link. -/
theorem Works.after {cs : List Condition} {p q t : Part} (k : Works cs q t) (hb : q.boot = p.boot) (hl : q.link = p.link) :
    Works cs p t := (Works.of_same hb hl).trans k

/-- The same as `trans`, with the later work named first. -/
theorem Works.since {cs : List Condition} {p q t : Part} (k : Works cs q t) (h : Works cs p q) : Works cs p t := h.trans k

theorem Works.of_raise {cs : List Condition} (c : Condition) (p : Part) (h : c ∈ cs) : Works cs p (raise c p) :=
  ⟨rfl, .of_raise h p, raise_list c p⟩

theorem Works.of_place (cs : List Condition) (n : Notice) (p : Part) : Works cs p (place n p) :=
  ⟨rfl, .of_conditions rfl, List.prefix_append _ _⟩

/-! ### The feed -/

/-- What a feed that enters states may raise. -/
def feedRaises : List Condition := [.stall]

theorem enterFeed_works (st : FeedState) (p : Part) : Works feedRaises p (enterFeed st p) := by
  unfold enterFeed
  split
  · exact .rfl _ p
  · dsimp only
    split
    · exact (Works.of_raise .stall _ (by simp [feedRaises])).after rfl rfl
    · exact .of_same rfl rfl

theorem feedDecide_works (p : Part) : Works feedRaises p (feedDecide p) :=
  (enterFeed_works _ _).after rfl rfl

theorem feedSetValue_works (v : FeedValue) (p : Part) : Works feedRaises p (feedSetValue v p) := by
  have decides : ∀ f, Works feedRaises p (feedDecide { p with feed := f }) := fun f =>
    (feedDecide_works _).after rfl rfl
  have keeps : ∀ f, Works feedRaises p { p with feed := f } := fun f => .of_same rfl rfl
  unfold feedSetValue
  split
  · dsimp only
    split
    · exact decides _
    · exact decides _
    · exact decides _
    · exact keeps _
  · dsimp only
    split
    · exact keeps _
    · exact decides _

theorem feedEnd_works (p : Part) : Works feedRaises p (feedEnd p) := (enterFeed_works _ _).after rfl rfl

theorem feedAttach_works (p : Part) : Works feedRaises p (feedAttach p) := (feedDecide_works _).after rfl rfl

theorem feedTakeover_works (p : Part) : Works feedRaises p (feedTakeover p) := by
  unfold feedTakeover
  split
  · exact (enterFeed_works _ _).after rfl rfl
  · exact .of_same rfl rfl

theorem feedReferenced_works (p : Part) : Works feedRaises p (feedReferenced p) := by
  unfold feedReferenced
  dsimp only
  split
  · exact (feedDecide_works _).after rfl rfl
  · exact (feedDecide_works _).after rfl rfl
  · exact .of_same rfl rfl

theorem feedCutOver_works (p : Part) : Works feedRaises p (feedCutOver p) := by
  unfold feedCutOver
  split
  · exact (feedDecide_works _).after rfl rfl
  · exact .rfl _ p

theorem feedSawParked_works (p : Part) : Works feedRaises p (feedSawParked p) := by
  unfold feedSawParked
  split
  · exact feedDecide_works p
  · exact .rfl _ p

theorem recoveryCheck_works (p : Part) : Works feedRaises p (recoveryCheck p) := by
  unfold recoveryCheck
  split
  · exact enterFeed_works _ p
  · exact .rfl _ p

theorem recoverForward_works (p : Part) : Works feedRaises p (recoverForward p) :=
  (enterFeed_works _ p).trans (recoveryCheck_works _)

theorem feedReact_works (armed : Bool) (p : Part) : Works feedRaises p (feedReact armed p) := by
  have same := Works.rfl feedRaises p
  have decide_ := feedDecide_works p
  unfold feedReact
  split
  · split
    · exact enterFeed_works _ p
    · exact decide_
  · split
    · exact enterFeed_works _ p
    · exact decide_
  · split
    · exact same
    · exact decide_
  · split
    · exact same
    · exact decide_
  · split
    · exact recoveryCheck_works p
    · exact decide_
  · exact decide_
  all_goals exact same

theorem feedHold_works (p : Part) : Works feedRaises p (feedHold p) := by
  unfold feedHold
  split
  · exact feedDecide_works p
  · exact feedDecide_works p
  · exact feedDecide_works p
  all_goals exact .rfl _ p

theorem holdComes_works (p : Part) : Works (.diamReject :: feedRaises) p (holdComes p) :=
  .since ((feedHold_works _).mono (List.subset_cons_self ..)) ((Works.of_raise .diamReject _ (by simp)).after rfl rfl)

theorem holdTest_works (p : Part) : Works (.diamReject :: feedRaises) p (holdTest p) := by
  unfold holdTest
  split
  · exact holdComes_works p
  · exact .rfl _ p

/-! ### Handing on, arming, the end of a period -/

theorem guidanceTest_works (cs : List Condition) (p : Part) : Works cs p (guidanceTest p) := by
  unfold guidanceTest
  split
  · split
    · exact (Works.of_place cs _ _).after rfl rfl
    · exact .rfl _ p
  · exact .rfl _ p

theorem handOver_works (e : Option Entry) (fresh : Bool) (p : Part) : Works feedRaises p (handOver e fresh p) := by
  have h : Works feedRaises p (feedReact e.isSome { p with
      diameter := p.diameter.take p.length.logPos e
      feed := p.feed.take e fresh
      monitor := { p.monitor with guidance := p.monitor.guidance.take e } }) :=
    (feedReact_works _ _).after rfl rfl
  unfold handOver
  dsimp only
  split
  · exact h.trans (guidanceTest_works _ _)
  · exact h

/-- What an arming occasion may raise. -/
def armRaises : List Condition := [.filler, .planEmpty, .stall]

theorem feedRaises_sub_armRaises : feedRaises ⊆ armRaises := by simp [feedRaises, armRaises]

theorem armingHands_works (a : Arming) (p : Part) : Works armRaises p (armingHands a p) := by
  have hands : ∀ e fresh q, Works armRaises q (handOver e fresh q) := fun e fresh q =>
    (handOver_works e fresh q).mono feedRaises_sub_armRaises
  cases a with
  | nothing => exact .rfl _ p
  | armed e => exact hands (some e) true p
  | filler e => exact (Works.of_raise .filler p (by simp [armRaises])).trans (hands (some e) true _)
  | empty => exact (Works.of_raise .planEmpty p (by simp [armRaises])).trans (hands none false _)

theorem arm_works (i : Fin 8) (p : Part) : Works armRaises p (arm i p) := by
  unfold arm
  split
  · exact .rfl _ p
  · exact (armingHands_works _ _).after rfl rfl

theorem endPeriod_works (p : Part) : Works feedRaises p (endPeriod p) := (feedEnd_works _).after rfl rfl

theorem finishTop_works (i : Fin 8) (r : Record) (x : Int) (p : Part) : Works feedRaises p (finishTop i r x p) :=
  .since (endPeriod_works _) ((Works.of_place _ _ _).after rfl rfl)

theorem established_works (i : Fin 8) (p : Part) : Works armRaises p (established i p) :=
  ((feedReferenced_works p).mono feedRaises_sub_armRaises).trans (arm_works i _)

/-! ### Cuts and the saw -/

theorem cutStart_works (kind : CutKind) (p : Part) : Works feedRaises p (cutStart kind p) := by
  unfold cutStart
  split
  · dsimp only
    split
    · exact .of_same rfl rfl
    · split
      · exact (handOver_works _ _ _).after rfl rfl
      · exact .of_same rfl rfl
  · exact .of_same rfl rfl

theorem afterLog_works (i : Fin 8) (r : Record) (x : Int) (p : Part) : Works armRaises p (afterLog i r x p) := by
  unfold afterLog
  split
  · exact (finishTop_works _ _ _ p).mono feedRaises_sub_armRaises
  · exact arm_works i p

theorem rebase_works (cs : List Condition) (active : Bool) (p : Part) : Works cs p (rebase active p) := by
  unfold rebase
  repeat' split
  all_goals exact .of_same rfl rfl

theorem completed_works (active : Bool) (i : Fin 8) (r : Option Record) (n : Notice) (p : Part) :
    Works armRaises p { place n ((rebase active p).setRecord i r) with
      table := { (place n ((rebase active p).setRecord i r)).table with bound := none } } :=
  (((rebase_works _ active p).trans (.of_same rfl rfl)).trans (.of_place _ n _)).trans (.of_same rfl rfl)

theorem cutComplete_works (p : Part) : Works armRaises p (cutComplete p) := by
  unfold cutComplete
  split
  · exact .rfl _ p
  · split
    · exact .of_same rfl rfl
    · dsimp only
      split
      · split
        · exact (completed_works _ _ _ _ p).trans (established_works _ _)
        · exact completed_works _ _ _ _ p
      · split
        · exact (completed_works _ _ _ _ p).trans (afterLog_works _ _ _ _)
        · exact completed_works _ _ _ _ p

theorem cutAbort_works (p : Part) : Works feedRaises p (cutAbort p) := by
  have base : Works feedRaises p { p with
      length := { p.length with carry := none }
      table := { p.table with bound := none } } := .of_same rfl rfl
  unfold cutAbort
  dsimp only
  split
  · split
    · exact base
    · split
      · exact base
      · split
        · exact (handOver_works _ _ _).after rfl rfl
        · exact .of_same rfl rfl
  · exact base

theorem sawParks_works (p : Part) : Works feedRaises p (sawParks p) := (feedSawParked_works _).after rfl rfl

theorem strokeCompletes_works (p : Part) : Works armRaises p (strokeCompletes p) := by
  have h : Works armRaises p (feedCutOver (cutComplete { p with saw := p.saw.return_ .completed })) :=
    .since ((feedCutOver_works _).mono feedRaises_sub_armRaises) ((cutComplete_works _).after rfl rfl)
  unfold strokeCompletes
  dsimp only
  split
  · exact h.trans ((sawParks_works _).mono feedRaises_sub_armRaises)
  · exact h

theorem sawAdvances_works (c : Cycle) (p : Part) : Works armRaises p (sawAdvances c p) := by
  have h : Works armRaises p (cutStart c.kind
      { p with saw := { p.saw with state := .advancing, cycle := some c, cutTimer := some 0, returnTimer := none } }) :=
    .after ((cutStart_works _ _).mono feedRaises_sub_armRaises) rfl rfl
  unfold sawAdvances
  dsimp only
  split
  · exact h.trans (strokeCompletes_works _)
  · exact h

theorem offerRequest_works (p : Part) : Works armRaises p (offerRequest p) := by
  unfold offerRequest
  split
  · split
    · exact (sawAdvances_works _ _).after rfl rfl
    · exact .rfl _ p
  · exact .rfl _ p

theorem goCutWait_works (p : Part) : Works armRaises p (goCutWait p) :=
  ((enterFeed_works _ p).mono feedRaises_sub_armRaises).trans ((offerRequest_works _).after rfl rfl)

theorem cutNow_works (p : Part) : Works armRaises p (cutNow p) := by
  have base : ∀ f, Works armRaises p { p with feed := f } := fun f => .of_same rfl rfl
  have settles : ∀ f, Works armRaises p (enterFeed .settle { p with feed := f }) := fun f =>
    (base f).trans ((enterFeed_works _ _).mono feedRaises_sub_armRaises)
  have go : ∀ f, Works armRaises p (goCutWait { p with feed := f }) := fun f => (base f).trans (goCutWait_works _)
  unfold cutNow
  dsimp only
  split
  · exact settles _
  · exact settles _
  · exact settles _
  · exact settles _
  · exact settles _
  · exact base _
  · exact go _
  · exact go _
  · exact go _
  · split
    · exact base _
    · exact (base _).trans (offerRequest_works _)
  · exact base _

theorem returnEnds_works (p : Part) : Works armRaises p (returnEnds p) := by
  have parks := (sawParks_works p).mono feedRaises_sub_armRaises
  unfold returnEnds
  split
  · exact parks
  · split
    · split
      · exact sawAdvances_works _ p
      · exact parks
    · exact .of_same rfl rfl
    · exact parks
    · exact parks

/-- What a cut timeout may raise. -/
def timeoutRaises : List Condition := .sawTimeout :: armRaises

theorem firstTimeout_works (p : Part) : Works armRaises p (firstTimeout p) := by
  have h : Works armRaises p (cutAbort { p with saw := p.saw.return_ .firstTimeout }) :=
    .after ((cutAbort_works _).mono feedRaises_sub_armRaises) rfl rfl
  unfold firstTimeout
  dsimp only
  split
  · exact h.trans (returnEnds_works _)
  · exact h

theorem secondTimeout_works (p : Part) : Works timeoutRaises p (secondTimeout p) := by
  have sub : feedRaises ⊆ timeoutRaises := by simp [feedRaises, timeoutRaises, armRaises]
  have h : Works timeoutRaises p
      (feedCutOver (cutAbort (raise .sawTimeout { p with saw := p.saw.return_ .secondTimeout }))) :=
    .since ((feedCutOver_works _).mono sub) (.since ((cutAbort_works _).mono sub)
      ((Works.of_raise .sawTimeout _ (by simp [timeoutRaises])).after rfl rfl))
  unfold secondTimeout
  dsimp only
  split
  · exact h.trans (.of_same rfl rfl)
  · exact h

theorem cutTimesOut_works (p : Part) : Works timeoutRaises p (cutTimesOut p) := by
  unfold cutTimesOut
  split
  · split
    · exact secondTimeout_works p
    · exact (firstTimeout_works p).mono (by simp [timeoutRaises])
  · exact .rfl _ p

theorem returnTimesOut_works (p : Part) : Works (.sawJam :: feedRaises) p (returnTimesOut p) := by
  unfold returnTimesOut
  split
  · exact .since ((feedCutOver_works _).mono (List.subset_cons_self ..)) ((Works.of_raise .sawJam _ (by simp)).after rfl rfl)
  · exact .rfl _ p

/-! ### The end of an event -/

/-- What the end of an event may raise: the hold's condition and the feed's. -/
def endRaises : List Condition := .diamReject :: feedRaises

/-- With no reset released by bus-off, the end of an event raises no condition but the hold's and the feed's. -/
theorem conclude_raises (b : Part) {p : Part} (h : p.boot.resetPending = none ∨ p.link.busOff = false) :
    RaisesOnly endRaises p (conclude b p) := by
  rw [conclude_eq, resetInBusOff_idle h, concludeRest_eq]
  exact (holdTest_works p).raises.trans (.of_conditions rfl)

/-- With no reset released by bus-off, the end of an event places its notices behind what stands on the send list, to its limit. -/
theorem conclude_list (b : Part) {p : Part} (h : p.boot.resetPending = none ∨ p.link.busOff = false) :
    ∃ l, p.link.sendList <+: l ∧ (conclude b p).link.sendList = if p.link.busOff then [] else l.take 16 := by
  refine ⟨(holdTest p).link.sendList, (holdTest_works p).list, ?_⟩
  rw [conclude_eq, resetInBusOff_idle h, concludeRest_eq]
  dsimp only
  rw [(holdTest_feedOnly p).busOff]

/-- What stands within the first sixteen places of the send list is kept by the end of an event. -/
theorem conclude_keeps_prefix (b : Part) {p : Part} (h : p.boot.resetPending = none ∨ p.link.busOff = false)
    (hb : p.link.busOff = false) {l : List SendItem} (hl : l <+: p.link.sendList) (h16 : l.length ≤ 16) :
    l <+: (conclude b p).link.sendList := by
  obtain ⟨m, hm, e⟩ := conclude_list b h
  rw [e, hb]
  exact (List.prefix_take_iff).mpr ⟨hl.trans hm, h16⟩

theorem Follows.requests {p q : Part} (h : Follows p q) : q.link.requests = p.link.requests := by rw [h]
theorem Follows.busOff {p q : Part} (h : Follows p q) : q.link.busOff = p.link.busOff := by rw [h]
theorem Follows.table {p q : Part} (h : Follows p q) : q.table = p.table := by rw [h]

end Sys2Proof.Machine
end

section
namespace Sys2Proof.Machine

/-! ### What a handler leaves of the link -/

/-- From `p` to `q` a handler has left the request queue, bus-off and the arranged reset. -/
structure Serves (p q : Part) : Prop where
  requests : q.link.requests = p.link.requests
  busOff : q.link.busOff = p.link.busOff
  pending : q.boot.resetPending = p.boot.resetPending

protected theorem Serves.rfl (p : Part) : Serves p p := ⟨rfl, rfl, rfl⟩

theorem Serves.trans {p q t : Part} (h : Serves p q) (k : Serves q t) : Serves p t :=
  ⟨k.requests.trans h.requests, k.busOff.trans h.busOff, k.pending.trans h.pending⟩

/-- The same as `trans`, with the later work named first. -/
theorem Serves.since {p q t : Part} (k : Serves q t) (h : Serves p q) : Serves p t := h.trans k

/-- Serving a part that differs in neither start-up nor link. -/
theorem Serves.after {p q t : Part} (k : Serves q t) (hb : q.boot = p.boot) (hl : q.link = p.link) : Serves p t :=
  ⟨by rw [k.requests, hl], by rw [k.busOff, hl], by rw [k.pending, hb]⟩

theorem FeedOnly.serves {p q : Part} (h : FeedOnly p q) : Serves p q := ⟨h.requests, h.busOff, by rw [h.boot]⟩

theorem HeadWork.serves {cs : List Condition} {p q : Part} (h : HeadWork p q) (k : Works cs p q) : Serves p q :=
  ⟨h.requests, h.busOff, by rw [k.boot]⟩

theorem handOver_serves (e : Option Entry) (fresh : Bool) (p : Part) : Serves p (handOver e fresh p) :=
  (handOver_headWork e fresh p).serves (handOver_works e fresh p)

theorem arm_serves (i : Fin 8) (p : Part) : Serves p (arm i p) := (arm_headWork i p).serves (arm_works i p)

theorem withStem_serves {id : StemId} {p : Part} {k : Fin 8 → Record → Reply} (h : ∀ i r, Serves p (k i r).part) :
    Serves p (withStem id p k).part := by
  unfold withStem
  split
  · exact .rfl p
  · split
    · exact .rfl p
    · exact h _ _

theorem doSetProfile_serves (args : List Byte) (p : Part) : Serves p (doSetProfile args p).part := by
  unfold doSetProfile
  repeat' split
  · exact .rfl p
  · exact .rfl p
  · exact .rfl p
  · next n _ _ _ =>
    have r : Serves p (releaseFrame n p) := by
      unfold releaseFrame
      split
      · exact ⟨rfl, rfl, rfl⟩
      · exact .rfl p
    exact .since ((guidanceTest_headWork _).serves (guidanceTest_works [] _))
      (.since (feedProfile_feedOnly _ _).serves ⟨r.requests, r.busOff, r.pending⟩)

theorem doSetFeed_serves (args : List Byte) (p : Part) : Serves p (doSetFeed args p).part := by
  unfold doSetFeed
  repeat' split
  · exact .rfl p
  · exact .rfl p
  · exact .rfl p
  · exact (feedSetValue_feedOnly _ p).serves

theorem doKnifeOverride_serves (args : List Byte) (p : Part) : Serves p (doKnifeOverride args p).part := by
  unfold doKnifeOverride
  repeat' split
  all_goals exact ⟨rfl, rfl, rfl⟩

theorem markTakeover_serves (p : Part) : Serves p (markTakeover p) := by
  unfold markTakeover
  split <;> exact ⟨rfl, rfl, rfl⟩

theorem takeoverBegins_serves (t : Takeover) (p : Part) : Serves p (takeoverBegins t p) := by
  have h : Serves p (feedTakeover (markTakeover { p with
      monitor := { p.monitor with takeover := t }
      saw := p.saw.takeCommand })) :=
    .since (feedTakeover_feedOnly _).serves ((markTakeover_serves _).after rfl rfl)
  unfold takeoverBegins
  dsimp only
  split
  · exact ⟨h.requests, h.busOff, h.pending⟩
  · exact h

theorem doTakeover_serves (args : List Byte) (p : Part) : Serves p (doTakeover args p).part := by
  have b : Serves p (takeoverRequested p) := by
    unfold takeoverRequested
    split
    · exact .rfl p
    · exact takeoverBegins_serves _ p
  have e : Serves p (takeoverReleased p) := by
    unfold takeoverReleased
    split
    · exact (feedSetValue_feedOnly _ _).serves.after rfl rfl
    · exact .rfl p
  unfold doTakeover
  repeat' split
  · exact .rfl p
  · exact .rfl p
  · exact b
  · exact e

theorem doCutNow_serves (args : List Byte) (p : Part) : Serves p (doCutNow args p).part := by
  unfold doCutNow
  repeat' split
  any_goals exact .rfl p
  exact (cutNow_headWork p).serves (cutNow_works p)

theorem doOpenStem_serves (args : List Byte) (p : Part) : Serves p (doOpenStem args p).part := by
  unfold doOpenStem
  repeat' split
  all_goals exact ⟨rfl, rfl, rfl⟩

theorem doAttachStem_serves (args : List Byte) (p : Part) : Serves p (doAttachStem args p).part := by
  refine withStem_serves fun i r => ?_
  repeat' split
  any_goals exact .rfl p
  exact .since (arm_serves i _) ((feedAttach_feedOnly _).serves.after rfl rfl)

theorem doFinishStem_serves (args : List Byte) (p : Part) : Serves p (doFinishStem args p).part := by
  refine withStem_serves fun i r => ?_
  split
  · exact .rfl p
  · split
    · exact .rfl p
    · unfold finishStem accept
      dsimp only
      split
      · exact ((endPeriod_headWork _).serves (endPeriod_works _)).after rfl rfl
      · exact ⟨rfl, rfl, rfl⟩

theorem doRetireStem_serves (args : List Byte) (p : Part) : Serves p (doRetireStem args p).part := by
  refine withStem_serves fun i r => ?_
  repeat' split
  all_goals exact ⟨rfl, rfl, rfl⟩

theorem doReadEntries_serves (args : List Byte) (p : Part) : Serves p (doReadEntries args p).part := by
  refine withStem_serves fun i r => ?_
  dsimp only
  repeat' split
  all_goals exact ⟨rfl, rfl, rfl⟩

theorem doAppendEntry_serves (args : List Byte) (p : Part) : Serves p (doAppendEntry args p).part := by
  refine withStem_serves fun i r => ?_
  dsimp only
  repeat' split
  any_goals exact .rfl p
  exact (arm_serves i _).after rfl rfl

theorem insertTaken_serves (i : Fin 8) (r : Record) (k : Nat) (st : EntryState) (plan : Planned) (p : Part) :
    Serves p (insertTaken i r k st plan p) := by
  refine .since (arm_serves i _) ?_
  split
  · exact (handOver_serves _ _ _).after rfl rfl
  · exact ⟨rfl, rfl, rfl⟩

theorem doInsertEntry_serves (args : List Byte) (p : Part) : Serves p (doInsertEntry args p).part := by
  refine withStem_serves fun i r => ?_
  dsimp only
  repeat' split
  any_goals exact .rfl p
  exact insertTaken_serves _ _ _ _ _ p

theorem doChangeEntry_serves (args : List Byte) (p : Part) : Serves p (doChangeEntry args p).part := by
  refine withStem_serves fun i r => ?_
  dsimp only
  repeat' split
  any_goals exact .rfl p
  unfold amended changeTaken accept
  dsimp only
  split
  · exact (handOver_serves _ _ _).after rfl rfl
  · exact ⟨rfl, rfl, rfl⟩

theorem cancelTaken_serves (i : Fin 8) (r : Record) (k : Nat) (e : Entry) (p : Part) : Serves p (cancelTaken i r k e p) := by
  unfold cancelTaken
  split
  · split
    · exact (handOver_serves _ _ _).after rfl rfl
    · exact ((armingHands_headWork _ _).serves (armingHands_works _ _)).after rfl rfl
  · exact ⟨rfl, rfl, rfl⟩

theorem doCancelEntry_serves (args : List Byte) (p : Part) : Serves p (doCancelEntry args p).part := by
  refine withStem_serves fun i r => ?_
  dsimp only
  repeat' split
  any_goals exact .rfl p
  exact cancelTaken_serves _ _ _ _ p

theorem doReadSpecies_serves (args : List Byte) (p : Part) : Serves p (doReadSpecies args p).part := by
  unfold doReadSpecies
  split <;> exact .rfl p

theorem doWriteSpecies_serves (args : List Byte) (p : Part) : Serves p (doWriteSpecies args p).part := by
  unfold doWriteSpecies
  repeat' split
  all_goals exact ⟨rfl, rfl, rfl⟩

theorem doClearSpecies_serves (args : List Byte) (p : Part) : Serves p (doClearSpecies args p).part := by
  unfold doClearSpecies
  repeat' split
  all_goals exact ⟨rfl, rfl, rfl⟩

theorem doCalibrate_serves (args : List Byte) (p : Part) : Serves p (doCalibrate args p).part := by
  refine withStem_serves fun i r => ?_
  repeat' split
  any_goals exact .rfl p
  unfold calibrateEntry
  split <;> exact ⟨rfl, rfl, rfl⟩

theorem doReadSetting_serves (args : List Byte) (p : Part) : Serves p (doReadSetting args p).part := by
  unfold doReadSetting
  split <;> exact .rfl p

theorem settingActs_serves (n : Fin 40) (p : Part) : Serves p (settingActs n p) := by
  have enable : ∀ l, Serves p (lineEnableWritten l p) := fun l => by
    unfold lineEnableWritten
    split <;> exact ⟨rfl, rfl, rfl⟩
  have window : ∀ l, Serves p (lineWindowWritten l p) := fun l => by
    unfold lineWindowWritten
    split <;> exact ⟨rfl, rfl, rfl⟩
  have snoop : Serves p (snoopWritten p) := by
    unfold snoopWritten
    split <;> exact ⟨rfl, rfl, rfl⟩
  have release : Serves p (releaseExpires p) := by
    unfold releaseExpires takeoverEnds
    split
    · exact (feedSetValue_feedOnly _ _).serves.after rfl rfl
    · exact .rfl p
    · exact .rfl p
  unfold settingActs
  split
  · exact enable .ka
  split
  · exact enable .kb
  split
  · exact enable .rl
  split
  · exact window .ka
  split
  · exact window .kb
  split
  · exact window .rl
  split
  · split
    · exact (cutTimesOut_headWork p).serves (cutTimesOut_works p)
    · exact .rfl p
  split
  · split
    · exact (returnTimesOut_headWork p).serves (returnTimesOut_works p)
    · exact .rfl p
  split
  · exact snoop
  split
  · split
    · exact release
    · exact .rfl p
  · exact .rfl p

theorem writeSetting_serves (n : Fin 40) (v : Int) (p : Part) : Serves p (writeSetting n v p) := by
  unfold writeSetting
  split
  · exact .rfl p
  · exact (settingActs_serves n _).after rfl rfl

theorem doWriteSetting_serves (args : List Byte) (p : Part) : Serves p (doWriteSetting args p).part := by
  unfold doWriteSetting
  repeat' split
  any_goals exact .rfl p
  next n _ _ _ _ =>
  have w := writeSetting_serves n (readI16 args 1) p
  unfold settingTaken accept refreshCompare
  dsimp only
  repeat' split
  · exact ⟨w.requests, w.busOff, w.pending⟩
  · exact w
  · exact w

theorem doStore_serves (args : List Byte) (p : Part) : Serves p (doStore args p).part := by
  unfold doStore
  split <;> exact ⟨rfl, rfl, rfl⟩

/-- Every handler but RESET's leaves the queue, bus-off and the arranged reset. -/
theorem handlerOf_serves {code : Byte} (h : code ∈ requestCodes) (hr : code ≠ 0x30) (args : List Byte) (p : Part) :
    Serves p (handlerOf code args p).part := by
  simp only [requestCodes, List.mem_cons, List.not_mem_nil, or_false] at h
  rcases h with rfl | rfl | rfl | rfl | rfl | rfl | rfl | rfl | rfl | rfl | rfl | rfl | rfl | rfl | rfl | rfl | rfl | rfl |
    rfl | rfl | rfl | rfl | rfl | rfl | rfl | rfl
  · exact (⟨rfl, rfl, rfl⟩ : Serves p (doStatus args p).part)
  · exact (⟨rfl, rfl, rfl⟩ : Serves p (doReadConditions args p).part)
  · exact (⟨rfl, rfl, rfl⟩ : Serves p (doSetMasks args p).part)
  · exact doSetProfile_serves args p
  · exact doSetFeed_serves args p
  · exact doKnifeOverride_serves args p
  · exact doTakeover_serves args p
  · exact doCutNow_serves args p
  · exact doOpenStem_serves args p
  · exact doAttachStem_serves args p
  · exact doFinishStem_serves args p
  · exact doRetireStem_serves args p
  · exact (withStem_serves fun _ _ => .rfl p : Serves p (doReadStem args p).part)
  · exact doReadEntries_serves args p
  · exact doAppendEntry_serves args p
  · exact doInsertEntry_serves args p
  · exact doChangeEntry_serves args p
  · exact doCancelEntry_serves args p
  · exact doReadSpecies_serves args p
  · exact doWriteSpecies_serves args p
  · exact doClearSpecies_serves args p
  · exact doCalibrate_serves args p
  · exact doReadSetting_serves args p
  · exact doWriteSetting_serves args p
  · exact doStore_serves args p
  · exact absurd rfl hr

/-! ### The answer's place -/

/-- The end of a taken request: the queue is the rest of it, and the answer stands behind what was on the send list. -/
theorem conclude_replies {p h : Part} {a : Answer} {rest : List (List Byte)} (hl : p.link.sendList.length < 16)
    (hr : h.link.requests = rest) (hb : h.link.busOff = p.link.busOff)
    (hp : h.boot.resetPending = none ∨ h.link.busOff = false) :
    p.replies (conclude p (answered p.link.sendList a h)) a rest := by
  have f := conclude_follows p (p := answered p.link.sendList a h) hp
  refine ⟨f.requests.trans hr, ?_⟩
  obtain ⟨l, hpre, hl'⟩ := conclude_list p (p := answered p.link.sendList a h) hp
  rw [hl', answered_link_busOff, hb]
  split
  · rfl
  · obtain ⟨notices, rfl⟩ := hpre
    refine ⟨(h.link.sendList ++ notices).take (15 - p.link.sendList.length), ?_⟩
    have e : 16 - p.link.sendList.length = (15 - p.link.sendList.length) + 1 := by omega
    simp only [answered, List.append_assoc, List.cons_append, List.take_append, List.take_of_length_le hl.le]
    rw [e, List.take_succ_cons, List.take_append]

/-- A granted request is answered OK, RESET in bus-off aside. -/
theorem granted_replies {p : Part} {code tag : Byte} {args : List Byte} {rest : List (List Byte)}
    (h : p.granted code tag args rest) (hc : code ∈ requestCodes) (hr : code ≠ 0x30 ∨ p.link.busOff = false) :
    p.replies (request code (argLength code) (handlerOf code) p)
      (okAnswer code tag (handlerOf code args (p.handed rest)).results) rest := by
  rw [request_granted h hc]
  obtain ⟨⟨⟨-, hp, hl, -⟩, -⟩, -⟩ := h
  rcases eq_or_ne code 0x30 with rfl | hne
  · have hb : p.link.busOff = false := hr.resolve_left fun k => k rfl
    have keeps : (doReset args (p.handed rest)).part.link = (p.handed rest).link := by
      unfold doReset
      split <;> rfl
    exact conclude_replies (h := (doReset args (p.handed rest)).part) hl (by rw [keeps]; rfl) (by rw [keeps]; rfl)
      (.inr (by rw [keeps]; exact hb))
  · have s := handlerOf_serves hc hne args (p.handed rest)
    exact conclude_replies hl s.requests s.busOff (.inl (s.pending.trans hp))

/-- Settles O9: a handler answers by its table (`handlerOf_answers`); a refusal changes nothing, and a granted request's answer
takes its place on the send list. -/
theorem requestsAnsweredByTheirTables : Obligations.RequestsAnsweredByTheirTables := by
  intro s code tag args rest hs ho hc hn
  refine ⟨fun a ha => runs_request hc ?_, fun hr hb => ⟨_, _, runs_request hc rfl, granted_replies ⟨ho, hn, hr⟩ hc hb⟩⟩
  have k := handlerOf_answers hc args (s.part.handed rest)
  rw [refusal_handed, ha] at k
  have k' : handlerOf code args (s.part.handed rest) = refuse a (s.part.handed rest) := k
  rw [request_offers (handlerOf code) ho hn, k']
  obtain ⟨⟨hon, -, hl, -⟩, -⟩ := ho
  have e : (refuse a (s.part.handed rest)).toAnswer code tag = { code, tag, answer := a, results := [] } := by
    unfold Reply.toAnswer refuse
    dsimp only
    split <;> rfl
  rw [e]
  exact conclude_refused (hs.quiet hon) _ rest hl

/-! ### Requests that only read -/

theorem withStem_of_lookup {p : Part} {id : StemId} {i : Fin 8} {r : Record} (hi : p.lookup id = some i)
    (hr : p.recordAt i = some r) (k : Fin 8 → Record → Reply) : withStem id p k = k i r := by
  simp [withStem, hi, hr]

theorem stemTests_of_lookup {p : Part} {args : List Byte} {i : Fin 8} {r : Record} (hi : p.lookup (readStem args) = some i)
    (hr : p.recordAt i = some r) (tests : Fin 8 → Record → List (Bool × AnswerCode)) :
    p.stemTests args tests = firstFailing (tests i r) := by
  simp [Part.stemTests, hi, hr]

theorem firstFailing_none {b : Bool} {a : AnswerCode} {t : List (Bool × AnswerCode)} :
    firstFailing ((b, a) :: t) = none ↔ b = false ∧ firstFailing t = none := by
  cases b <;> simp [firstFailing_cons]

theorem established_eq (r : Record) : r.established = true ↔ r.reference ≠ .none := by simp [Record.established]

/-- Settles O10: each of the five handlers accepts with the values of the moment and leaves the part it met. -/
theorem readingRequestsAnswerASnapshot : Obligations.ReadingRequestsAnswerASnapshot := by
  intro s tag args rest hs
  refine ⟨fun h => granted_reads hs h (by decide) rfl, fun i r h hi hr => ?_, fun i r h hi hr => ?_, fun c h hc => ?_,
    fun n h hn => ?_⟩
  · refine granted_reads hs h (by decide) ?_
    refine (withStem_of_lookup (p := s.part.handed rest) hi hr _).trans ?_
    simp only [Part.lentPosition, Part.lentDiameter, established_eq]
    rfl
  · have hr' := h.2.2
    have ht : firstFailing [(decide (r.entries.length ≤ readU8 args 2), AnswerCode.noSuchEntry),
        (readU8 args 3 == 0 || decide (2 < readU8 args 3), .badArgument)] = none :=
      (stemTests_of_lookup hi hr _).symm.trans hr'
    obtain ⟨h1, h2, -⟩ := by simpa only [firstFailing_none] using ht
    refine granted_reads hs h (by decide) ?_
    refine (withStem_of_lookup (p := s.part.handed rest) hi hr _).trans ?_
    simp only [decide_eq_false_iff_not, Bool.or_eq_false_iff, beq_eq_false_iff_ne, ne_eq] at h1 h2
    rw [if_neg h1, if_neg (by tauto), List.length_take, List.length_drop]
  · refine granted_reads hs h (by decide) ?_
    change doReadSpecies args (s.part.handed rest) = _
    unfold doReadSpecies
    rw [hc]
    rfl
  · refine granted_reads hs h (by decide) ?_
    change doReadSetting args (s.part.handed rest) = _
    unfold doReadSetting
    rw [hn]
    rfl

end Sys2Proof.Machine
end

section
namespace Sys2Proof.Machine

/-! ### The ACTIVE record after a write of the table -/

/-- Where the same slots are ACTIVE, the same one is found. -/
theorem activeSlot_congr {p q : Part} (h : ∀ j, q.isActive j = p.isActive j) : q.activeSlot = p.activeSlot := by
  unfold Part.activeSlot
  rw [funext h]

theorem isActive_congr {p q : Part} {i : Fin 8} (h : q.recordAt i = p.recordAt i) : q.isActive i = p.isActive i := by
  unfold Part.isActive
  rw [h]

/-- A write of a slot that is ACTIVE neither before nor after leaves the ACTIVE record. -/
theorem active_of_others {p q : Part} {i : Fin 8} (hp : p.isActive i = false) (hq : q.isActive i = false)
    (others : ∀ j, j ≠ i → q.recordAt j = p.recordAt j) :
    q.hasActive = p.hasActive ∧ q.activeRecord = p.activeRecord := by
  have slot : q.activeSlot = p.activeSlot := activeSlot_congr fun j => by
    rcases eq_or_ne j i with rfl | hj
    · rw [hp, hq]
    · exact isActive_congr (others j hj)
  refine ⟨by unfold Part.hasActive; rw [slot], ?_⟩
  unfold Part.activeRecord
  rw [slot]
  rcases h : p.activeSlot with _ | j
  · rfl
  · have hj : j ≠ i := fun e => by
      rw [← e, activeSlot_isActive h] at hp
      cases hp
    exact others j hj

/-- A quiet part stays quiet under a table with the same ACTIVE record: its events' end reads no more of the table. -/
theorem Quiet.with_table {p : Part} (h : Quiet p) (t : Table) (hs : Part.hasActive { p with table := t } = p.hasActive)
    (hr : Part.activeRecord { p with table := t } = p.activeRecord) : Quiet { p with table := t } := by
  have inUse : Part.inUse { p with table := t } = p.inUse := by
    unfold Part.inUse
    rw [hr]
  have value : ∀ f, Part.speciesValue { p with table := t } f = p.speciesValue f := fun f => by
    unfold Part.speciesValue
    rw [inUse]
  have gone : Part.stemGone { p with table := t } = p.stemGone := by
    unfold Part.stemGone
    rw [hs]
    rfl
  have slips : Part.slipRuns { p with table := t } = p.slipRuns := by
    unfold Part.slipRuns
    rw [hs]
    rfl
  have state : Part.knifeState { p with table := t } = p.knifeState := by
    unfold Part.knifeState
    rw [hs]
  have clamp : Part.clampPressure { p with table := t } = p.clampPressure := by
    unfold Part.clampPressure
    simp only [value]
    rfl
  have pressure : ∀ k, Part.knifePressure { p with table := t } k = p.knifePressure k := fun k => by
    unfold Part.knifePressure Part.computedPressure
    simp only [clamp]
    rfl
  have knife : Part.nextKnife { p with table := t } = p.nextKnife := by
    unfold Part.nextKnife
    simp only [state, pressure]
  have demand : Part.feedDemand { p with table := t } = p.feedDemand := by
    unfold Part.feedDemand
    simp only [value]
  have image : Part.nextImage { p with table := t } = p.nextImage := by
    unfold Part.nextImage
    rw [demand, knife]
    rfl
  exact ⟨h.pending, h.holds, by rw [gone]; exact h.drop, by rw [slips]; exact h.slip, h.ready, by rw [knife]; exact h.knife,
    by rw [image]; exact h.image, h.refresh, h.list⟩

/-- A request that leaves a quiet part but for the answer: nothing follows it. -/
theorem Quiet.conclude_answered {q : Part} (h : Quiet q) (b : Part) (hl : b.link = q.link) (hs : b.sendsValve = q.sendsValve)
    (a : Answer) (rest : List (List Byte)) (h16 : q.link.sendList.length < 16) :
    conclude b (answered q.link.sendList a (q.handed rest)) = q.withAnswer a rest := by
  have := (h.took rest).conclude_list b (by rw [hl]; rfl) hs (q.link.sendList ++ [.answer a])
  rw [List.take_of_length_le (by simp; omega)] at this
  exact this

/-- A granted request that writes the table and leaves the ACTIVE record. -/
theorem granted_writes {s : State} {code tag : Byte} {args : List Byte} {rest : List (List Byte)} {results : List Byte}
    {t : Table} (hs : Settled s.part) (h : s.part.granted code tag args rest) (hc : code ∈ requestCodes)
    (ha : Part.hasActive { s.part with table := t } = s.part.hasActive)
    (hr : Part.activeRecord { s.part with table := t } = s.part.activeRecord)
    (hh : handlerOf code args (s.part.handed rest) = accept results { s.part.handed rest with table := t }) :
    Runs (requestRow code) s (Part.withAnswer { s.part with table := t } (okAnswer code tag results) rest) := by
  refine runs_request hc ?_
  rw [request_granted h hc, hh]
  obtain ⟨⟨⟨hon, -, hl, -⟩, -⟩, -⟩ := h
  exact ((hs.quiet hon).with_table t ha hr).conclude_answered s.part rfl rfl _ rest hl

/-! ### OPEN STEM, RETIRE STEM -/

theorem isActive_of_free {p : Part} {i : Fin 8} (h : p.recordAt i = none) : p.isActive i = false := by
  simp [Part.isActive, h]

theorem isActive_of_state {p : Part} {i : Fin 8} {r : Record} (h : p.recordAt i = some r) (hr : r.state ≠ .active) :
    p.isActive i = false := by
  simp [Part.isActive, h, hr]

/-- The FREE slot found is the lowest one. -/
theorem freeSlot_lowest {p : Part} {i j : Fin 8} (h : p.freeSlot = some i) (hj : j < i) : p.recordAt j ≠ none := by
  unfold Part.freeSlot at h
  intro hn
  obtain ⟨-, as, bs, hab, hno⟩ := List.find?_eq_some_iff_append.mp h
  have hsorted : slotList.Pairwise (· < ·) := by decide
  rw [hab] at hsorted
  have hmem : j ∈ as ++ i :: bs := hab ▸ mem_slotList j
  have hja : j ∈ as := by
    rcases List.mem_append.mp hmem with h | h
    · exact h
    · rcases List.mem_cons.mp h with rfl | h
      · exact absurd hj (lt_irrefl _)
      · have := (List.pairwise_cons.mp (List.pairwise_append.mp hsorted).2.1).1 j h
        exact absurd (hj.trans this) (lt_irrefl _)
  simpa [hn] using hno j hja

/-- Settles O20: the handler writes the FREE slot found, which leaves the ACTIVE record, so nothing follows. -/
theorem openStemCreatesARecord : Obligations.OpenStemCreatesARecord := by
  intro s tag args rest c i hs h hc hi
  have hfree := freeSlot_isFree hi
  refine ⟨hfree, fun j hj => freeSlot_lowest hi hj, ?_⟩
  have table := h.2.2
  have ht : firstFailing [((s.part.validSpecies (readU8 args 0)).isNone, AnswerCode.badArgument),
      (decide (4 < readU8 args 1) || !(inlinePlans args (readU8 args 1)).all Planned.allowed, .badArgument),
      (s.part.freeSlot.isNone, .tableFull)] = none := table
  obtain ⟨h1, h2, -⟩ := by simpa only [firstFailing_none] using ht
  obtain ⟨k, hk⟩ := Option.isSome_iff_exists.mp (by simpa using h1)
  obtain rfl : k = c := Fin.ext ((validSpecies_spec hk).1.trans hc.symm)
  simp only [Bool.or_eq_false_iff, decide_eq_false_iff_not, Bool.not_eq_false'] at h2
  have active := active_of_others (p := s.part) (q := s.part.setRecord i (some (Record.fresh k (inlinePlans args (readU8 args 1)))))
    (isActive_of_free hfree) (isActive_of_state (recordAt_setRecord_self _ i _) (by simp [Record.fresh]))
    (fun j hj => recordAt_setRecord_ne _ (Ne.symm hj) _)
  have run := granted_writes (t := (s.part.setRecord i (some (Record.fresh k (inlinePlans args (readU8 args 1))))).table)
    (results := stemBytes (s.part.stemId i)) hs h (by decide) active.1 active.2 (by
      change doOpenStem args (s.part.handed rest) = _
      unfold doOpenStem
      rw [show (s.part.handed rest).validSpecies (readU8 args 0) = some k from hk,
        show (s.part.handed rest).freeSlot = some i from hi]
      dsimp only
      rw [if_neg h2.1, if_neg (by simp [h2.2])]
      rfl)
  have e : Record.fresh k (inlinePlans args (readU8 args 1)) =
      { state := .opened, species := k, reference := .none, felled := false, stump := none, revision := 0
        entries := (inlinePlans args (readU8 args 1)).mapIdx fun k plan =>
          { ident := k, state := .pending, plan, results := none }
        nextIdent := readU8 args 1, logCount := 0, produced := 0, excessCount := 0, excessLength := 0, topRemnant := none
        topSeen := false, held := none, dropCount := 0, takeoverSeen := false } := by
    simp only [Record.fresh, inlinePlans_length]
  rw [← e]
  exact run

/-- Settles O23: the handler retires a record that is not ACTIVE, so nothing follows; what any command does to the generations is read
off the six ways of `StemStep`. -/
theorem retireStemFreesTheSlot : Obligations.RetireStemFreesTheSlot := by
  intro s
  refine ⟨fun tag args rest i hs h hi => ?_, fun c q hq => ?_⟩
  · obtain ⟨r, hr⟩ := Option.isSome_iff_exists.mp (lookup_spec hi).2.2
    have ht : firstFailing [(r.state == .active, AnswerCode.inHead), (s.part.boundTo i, .busy)] = none :=
      (stemTests_of_lookup hi hr _).symm.trans h.2.2
    obtain ⟨h1, h2, -⟩ := by simpa only [firstFailing_none] using ht
    have hna : r.state ≠ .active := by simpa using h1
    have active := active_of_others (p := s.part) (q := retireStem i s.part) (isActive_of_state hr hna)
      (isActive_of_free (by simp [recordAt_retireStem])) (fun j hj => by simp [recordAt_retireStem, Ne.symm hj])
    exact granted_writes (t := (retireStem i s.part).table) hs h (by decide) active.1 active.2 (by
      refine (withStem_of_lookup (p := s.part.handed rest) hi hr _).trans ?_
      rw [if_neg hna, if_neg (by simpa [Part.boundTo, Part.handed] using h2)]
      rfl)
  · have k : StemStep c s.part q := exec_stemStep (s' := { s with part := q }) hq
    have same : ∀ {t : Part}, q.table.slots = t.table.slots → (∀ j : Fin 8, t.table.slots[j].generation =
        s.part.table.slots[j].generation) → ∀ j : Fin 8, q.table.slots[j].generation = s.part.table.slots[j].generation :=
      fun e g j => by rw [e]; exact g j
    cases k with
    | restarted table => exact .inl table
    | moved m _ => exact .inr fun j => .inl (m j).1
    | relearned _ _ table _ _ => exact .inr fun j => .inl (by rw [table])
    | opened i _ _ _ _ table _ => exact .inr fun j => .inl (same (by rw [table]) (generation_setRecord _ i · _) j)
    | attached i _ _ _ m _ => exact .inr fun j => .inl ((m j).1.trans (generation_setRecord _ i j _))
    | retired i command was table _ =>
      refine .inr fun j => ?_
      rcases eq_or_ne i j with rfl | hj
      · refine .inr ⟨command, was, ?_, ?_⟩
        · rw [Part.recordAt, table]
          simp [retireStem]
        · rw [table]
          simp [retireStem]
      · have hv : i.val ≠ j.val := fun e => hj (Fin.ext e)
        left
        rw [table]
        simp [retireStem, hv]

end Sys2Proof.Machine
end

section
namespace Sys2Proof.Machine

/-! ### `Follows` as a relation -/

theorem Follows.trans {p q t : Part} (h : Follows p q) (k : Follows q t) : Follows p t := by
  unfold Follows at *
  rw [h] at k
  exact k

theorem FeedOnly.follows {p q : Part} (h : FeedOnly p q) : Follows p q := by
  unfold FeedOnly at h
  unfold Follows
  rw [h]

theorem Follows.diameterEntry {p q : Part} (h : Follows p q) : q.diameter.entry = p.diameter.entry := by rw [h]

/-- An answer placed is a matter of the send list alone. -/
theorem Follows.of_answered (old : List SendItem) (a : Answer) (p : Part) : Follows p (answered old a p) := by
  simp [Follows, answered]

theorem holdPasses_of_noEntry {p : Part} (h : p.diameter.entry = none) : p.holdPasses = false := by
  simp [Part.holdPasses, h]

/-- With no entry held and no reset released, nothing but the stages of `concludeRest` follows an event. -/
theorem conclude_of_noEntry (b : Part) {p : Part} (hp : p.boot.resetPending = none ∨ p.link.busOff = false)
    (he : p.diameter.entry = none) : conclude b p = concludeRest b p := by
  rw [conclude_eq, resetInBusOff_idle hp, holdTest_idle (holdPasses_of_noEntry he)]

/-- The end of an event leaves the feed where no hold can come. -/
theorem conclude_feed_of_noEntry (b : Part) {p : Part} (hp : p.boot.resetPending = none ∨ p.link.busOff = false)
    (he : p.diameter.entry = none) :
    (conclude b p).feed = p.feed ∧ (conclude b p).link.conditions = p.link.conditions := by
  rw [conclude_of_noEntry b hp he, concludeRest_eq]
  exact ⟨rfl, rfl⟩

/-- A granted request that its handler accepts: the row runs, and the answer takes its place. -/
theorem granted_accepts {s : State} {code tag : Byte} {args : List Byte} {rest : List (List Byte)} {results : List Byte} {x : Part}
    (h : s.part.granted code tag args rest) (hc : code ∈ requestCodes) (hne : code ≠ 0x30)
    (hh : handlerOf code args (s.part.handed rest) = accept results x) :
    Runs (requestRow code) s (conclude s.part (answered s.part.link.sendList (okAnswer code tag results) x))
      ∧ s.part.replies (conclude s.part (answered s.part.link.sendList (okAnswer code tag results) x))
          (okAnswer code tag results) rest := by
  have run := request_granted h hc
  have replies := granted_replies h hc (.inl hne)
  rw [run] at replies
  rw [hh] at run replies
  exact ⟨runs_request hc run, replies⟩

/-! ### The table after a request -/

theorem OtherSlotsKept.recordAt {p q : Part} {i j : Fin 8} (h : OtherSlotsKept p q i) (hj : j ≠ i) :
    q.recordAt j = p.recordAt j := congrArg Slot.record (h j hj)

/-- A part whose table is another's with the record of a slot written. -/
theorem written_table {p q : Part} {i : Fin 8} {r : Option Record} (h : q.table = (p.setRecord i r).table) :
    q.recordAt i = r ∧ OtherSlotsKept p q i ∧ q.stemId i = p.stemId i ∧ q.table.bound = p.table.bound := by
  refine ⟨?_, fun j hj => ?_, ?_, by rw [h]; rfl⟩
  · rw [Part.recordAt, h]
    exact recordAt_setRecord_self p i r
  · rw [h]
    exact setRecord_others p i r j hj
  · rw [Part.stemId, h]
    exact stemId_setRecord p i i r

/-- Where none was ACTIVE, a record that is written ACTIVE is the one found. -/
theorem activeSlot_written {p q : Part} {i : Fin 8} {r : Record} (hp : p.hasActive = false) (hi : q.recordAt i = some r)
    (hr : r.state = .active) (others : OtherSlotsKept p q i) : q.activeSlot = some i := by
  refine activeSlot_of_isActive (fun j k hj hk => ?_) ((isActive_iff q i).mpr ⟨r, hi, hr⟩)
  have only : ∀ j, q.isActive j = true → j = i := fun j hj => by
    by_contra hne
    rw [isActive_congr (others.recordAt hne), hasActive_false hp j] at hj
    cases hj
  rw [only j hj, only k hk]

/-! ### ATTACH STEM -/

/-- The decision under the value GRIP with a record ACTIVE: rows 2 to 4 of the table (05 R98). -/
theorem decision_grip {p : Part} {r : Record} (hr : p.activeRecord = some r) (hv : p.feed.value = .grip) :
    p.decision = if p.monitor.profile.works = false then .idle
      else if p.monitor.takeover.inForce then .manual else .grip := by
  simp [Part.decision, hr, hv]

/-- The part that the feed takes at an attachment: record ACTIVE, units started afresh (01 R8). -/
def attachedUnits (i : Fin 8) (r : Record) (p : Part) : Part :=
  { p.setRecord i (some r.attach) with
    length := p.length.attach
    diameter := p.diameter.attach
    monitor := { p.monitor with guidance := .reset } }

theorem attach_mayArm (r : Record) : r.attach.mayArm = false := by
  simp [Record.mayArm, Record.attach, Record.established]

/-- A record just attached has no reference, so nothing is armed (01 R8). -/
theorem attachStem_eq (i : Fin 8) (r : Record) (p : Part) : attachStem i r p = feedAttach (attachedUnits i r p) := by
  have ht : (feedAttach (attachedUnits i r p)).recordAt i = some r.attach := by
    rw [Part.recordAt, (feedAttach_feedOnly _).table]
    exact recordAt_setRecord_self p i _
  exact arm_idle ht (attach_mayArm r)

/-- The feed after an attachment: GRIP, with nothing held, and in the state of rows 2 to 4 of the decision table. -/
theorem feedAttach_spec {p : Part} {r : Record} (hr : p.activeRecord = some r) :
    (feedAttach p).feed.value = .grip ∧ (feedAttach p).feed.held = none ∧ (feedAttach p).feed.corrections = 0
      ∧ (feedAttach p).feed.seekSpent = false ∧ (feedAttach p).feed.stallOut = false
      ∧ (feedAttach p).feed.state = (if p.monitor.profile.works = false then .idle
          else if p.monitor.takeover.inForce then .manual else .grip)
      ∧ (feedAttach p).link = p.link := by
  have hd := decision_grip (p := { p with feed := { p.feed with
    value := .grip, held := none, corrections := 0, seekSpent := false, stallOut := false, cutAsLies := false } }) hr rfl
  have hns : Part.decision { p with feed := { p.feed with
      value := .grip, held := none, corrections := 0, seekSpent := false, stallOut := false, cutAsLies := false } }
      ≠ .stalled := by
    rw [hd]
    repeat' split
    all_goals simp
  unfold feedAttach
  exact ⟨by simp, by simp, by simp, by simp, by rw [feedDecide_stallOut hns], by rw [feedDecide_state, hd],
    by rw [feedDecide_link hns]⟩

/-- Settles O21: nothing is armed, the feed takes the attachment, and with no entry held only the plain stages follow. -/
theorem attachStemStartsAnActivePeriod : Obligations.AttachStemStartsAnActivePeriod := by
  intro s tag args rest i r hs h hi hr
  obtain ⟨⟨⟨hon, hpend, hlen, hreq⟩, hready⟩, -, href⟩ := id h
  have ht : firstFailing [(s.part.monitor.profile == .off, AnswerCode.wrongState),
      (r.state == .active || r.state == .finished, .wrongState), (s.part.boundTo i, .busy), (s.part.hasActive, .headOccupied)]
      = none := (stemTests_of_lookup hi hr _).symm.trans href
  obtain ⟨h1, h2, h3, h4, -⟩ := by simpa only [firstFailing_none] using ht
  have alone : (s.part.handed rest).hasActive = false := h4
  have hh : doAttachStem args (s.part.handed rest) =
      accept [] (feedAttach (attachedUnits i r (s.part.handed rest))) := by
    refine (withStem_of_lookup (p := s.part.handed rest) hi hr _).trans ?_
    rw [if_neg (by simpa [Part.handed] using h1), if_neg (by simpa using h2),
      if_neg (by simpa [Part.boundTo, Part.handed] using h3), if_neg (by rw [alone]; simp), attachStem_eq]
  obtain ⟨hrec, hothers, -, -⟩ := written_table (p := s.part.handed rest) (q := attachedUnits i r (s.part.handed rest)) rfl
  have hslot := activeSlot_written alone hrec rfl hothers
  have feed := feedAttach_spec ((activeRecord_of_slot hslot).trans hrec)
  have only := feedAttach_feedOnly (attachedUnits i r (s.part.handed rest))
  obtain ⟨hval, hheld, hcorr, hseek, hstall, hstate, hlink⟩ := feed
  set x := feedAttach (attachedUnits i r (s.part.handed rest)) with hx
  obtain ⟨run, replies⟩ := granted_accepts h (by decide) (by decide)
    (show handlerOf 0x11 args (s.part.handed rest) = accept [] x from hh)
  have pend : (answered s.part.link.sendList (okAnswer 0x11 tag []) x).boot.resetPending = none := by
    rw [answered_boot, only.boot]; exact hpend
  have entry : (answered s.part.link.sendList (okAnswer 0x11 tag []) x).diameter.entry = none := by
    rw [answered_diameter, only.diameter]; rfl
  have fol := conclude_follows s.part (.inl pend)
  obtain ⟨hfeed, hcond⟩ := conclude_feed_of_noEntry s.part (.inl pend) entry
  have table : (conclude s.part (answered s.part.link.sendList (okAnswer 0x11 tag []) x)).table =
      (s.part.setRecord i (some r.attach)).table := by
    rw [fol.table, answered_table, only.table]; rfl
  refine ⟨_, run, replies, ?_⟩
  obtain ⟨trec, tothers, tid, tbound⟩ := written_table table
  refine ⟨trec, tothers, tid, activeSlot_written h4 trec rfl tothers, tbound, ?_⟩
  rw [hfeed, hcond]
  refine ⟨hval, hheld, hcorr, hseek, hstall, hstate, ?_, ?_⟩
  · rw [answered_link_conditions, hlink]; rfl
  · rw [table]
    refine Follows.trans ?_ ((only.follows.trans (.of_answered _ _ _)).trans fol)
    rfl

/-! ### FINISH STEM -/

/-- The feed at the end of a period (05 R119). -/
theorem feedEnd_spec (p : Part) :
    (feedEnd p).feed.value = .idle ∧ (feedEnd p).feed.state = .idle ∧ (feedEnd p).feed.held = none
      ∧ (feedEnd p).feed.corrections = 0 ∧ (feedEnd p).feed.pendingDirect = false ∧ (feedEnd p).feed.request = .none
      ∧ (feedEnd p).feed.seekSpent = false ∧ (feedEnd p).feed.stallOut = false ∧ (feedEnd p).link = p.link := by
  unfold feedEnd
  refine ⟨by simp, by simp, by simp, by simp, by simp, ?_, by simp, by rw [enterFeed_stallOut (by simp)],
    by rw [enterFeed_link (by simp)]⟩
  unfold enterFeed
  split
  · rfl
  · simp [Feed.enter]

/-- The part that the feed takes at the end of a period: units ended, guidance reset. -/
def endedUnits (p : Part) : Part :=
  { p with length := p.length.endPeriod, diameter := p.diameter.endPeriod, monitor := { p.monitor with guidance := .reset } }

theorem endPeriod_eq (p : Part) : endPeriod p = feedEnd (endedUnits p) := rfl

theorem finish_isActive (p : Part) (i : Fin 8) (r : Record) : (p.setRecord i (some r.finish)).isActive i = false :=
  isActive_of_state (recordAt_setRecord_self p i _) (by simp [Record.finish])

/-- Settles O22: a DROPPED record is written and nothing follows; an ACTIVE one ends its period, after which no entry is held, so
that only the plain stages follow. -/
theorem finishStemEndsProcessing : Obligations.FinishStemEndsProcessing := by
  intro s tag args rest i r hs h hi hr
  obtain ⟨⟨⟨hon, hpend, hlen, hreq⟩, hready⟩, -, href⟩ := id h
  have ht : firstFailing [(r.state == .opened || r.state == .finished, AnswerCode.wrongState), (s.part.boundTo i, .busy)] = none :=
    (stemTests_of_lookup hi hr _).symm.trans href
  obtain ⟨h1, h2, -⟩ := by simpa only [firstFailing_none] using ht
  have hh : doFinishStem args (s.part.handed rest) = accept [] (finishStem i r (s.part.handed rest)) := by
    refine (withStem_of_lookup (p := s.part.handed rest) hi hr _).trans ?_
    rw [if_neg (by simpa using h1), if_neg (by simpa [Part.boundTo, Part.handed] using h2)]
  refine ⟨fun hd => ?_, fun ha => ?_⟩
  · have active := active_of_others (p := s.part) (q := s.part.setRecord i (some r.finish))
      (isActive_of_state hr (by simp [hd])) (finish_isActive _ _ _) (fun j hj => recordAt_setRecord_ne _ (Ne.symm hj) _)
    refine granted_writes (t := (s.part.setRecord i (some r.finish)).table) hs h (by decide) active.1 active.2
      (hh.trans ?_)
    simp only [finishStem, hd, reduceCtorEq, if_false]
    rfl
  · have hx : finishStem i r (s.part.handed rest) =
        feedEnd (endedUnits ((s.part.handed rest).setRecord i (some r.finish))) := by
      simp [finishStem, ha, endPeriod_eq]
    have only := feedEnd_feedOnly (endedUnits ((s.part.handed rest).setRecord i (some r.finish)))
    obtain ⟨hval, hstate, hheld, hcorr, hdirect, hrequest, hseek, hstall, hlink⟩ :=
      feedEnd_spec (endedUnits ((s.part.handed rest).setRecord i (some r.finish)))
    rw [hx] at hh
    set x := feedEnd (endedUnits ((s.part.handed rest).setRecord i (some r.finish)))
    obtain ⟨run, replies⟩ := granted_accepts h (by decide) (by decide)
      (show handlerOf 0x12 args (s.part.handed rest) = accept [] x from hh)
    have pend : (answered s.part.link.sendList (okAnswer 0x12 tag []) x).boot.resetPending = none := by
      rw [answered_boot, only.boot]; exact hpend
    have entry : (answered s.part.link.sendList (okAnswer 0x12 tag []) x).diameter.entry = none := by
      rw [answered_diameter, only.diameter]; rfl
    have fol := conclude_follows s.part (.inl pend)
    obtain ⟨hfeed, hcond⟩ := conclude_feed_of_noEntry s.part (.inl pend) entry
    have table : (conclude s.part (answered s.part.link.sendList (okAnswer 0x12 tag []) x)).table =
        (s.part.setRecord i (some r.finish)).table := by
      rw [fol.table, answered_table, only.table]; rfl
    refine ⟨_, run, replies, ?_⟩
    obtain ⟨trec, tothers, tid, tbound⟩ := written_table table
    refine ⟨trec, tothers, tid, tbound, ?_⟩
    rw [hfeed, hcond]
    refine ⟨hval, hstate, hheld, hcorr, hdirect, hrequest, hseek, hstall, ?_, ?_⟩
    · rw [answered_link_conditions, hlink]; rfl
    · rw [table]
      refine Follows.trans ?_ ((only.follows.trans (.of_answered _ _ _)).trans fol)
      rfl

end Sys2Proof.Machine
end

section
namespace Sys2Proof.Machine

/-! ### What the feed's operations keep of the held entry -/

@[simp] theorem recoveryCheck_held (p : Part) : (recoveryCheck p).feed.held = p.feed.held := by
  unfold recoveryCheck
  split <;> simp

@[simp] theorem recoveryCheck_corrections (p : Part) : (recoveryCheck p).feed.corrections = p.feed.corrections := by
  unfold recoveryCheck
  split <;> simp

@[simp] theorem feedReact_held (armed : Bool) (p : Part) : (feedReact armed p).feed.held = p.feed.held := by
  cases armed <;> unfold feedReact <;> split <;> simp

@[simp] theorem feedReact_corrections (armed : Bool) (p : Part) :
    (feedReact armed p).feed.corrections = p.feed.corrections := by
  cases armed <;> unfold feedReact <;> split <;> simp

@[simp] theorem feedReferenced_held (p : Part) : (feedReferenced p).feed.held = p.feed.held := by
  unfold feedReferenced
  dsimp only
  split <;> simp

@[simp] theorem feedReferenced_corrections (p : Part) : (feedReferenced p).feed.corrections = p.feed.corrections := by
  unfold feedReferenced
  dsimp only
  split <;> simp

@[simp] theorem feedHold_held (p : Part) : (feedHold p).feed.held = p.feed.held := by
  unfold feedHold
  split <;> simp

@[simp] theorem feedHold_corrections (p : Part) : (feedHold p).feed.corrections = p.feed.corrections := by
  unfold feedHold
  split <;> simp

@[simp] theorem feedHold_value (p : Part) : (feedHold p).feed.value = p.feed.value := by
  unfold feedHold
  split <;> simp

@[simp] theorem feedCutOver_held (p : Part) : (feedCutOver p).feed.held = p.feed.held := by
  unfold feedCutOver
  split <;> simp

@[simp] theorem feedCutOver_corrections (p : Part) : (feedCutOver p).feed.corrections = p.feed.corrections := by
  unfold feedCutOver
  split <;> simp

@[simp] theorem holdComes_held (p : Part) : (holdComes p).feed.held = p.feed.held := by simp [holdComes]
@[simp] theorem holdComes_corrections (p : Part) : (holdComes p).feed.corrections = p.feed.corrections := by simp [holdComes]
@[simp] theorem holdComes_value (p : Part) : (holdComes p).feed.value = p.feed.value := by simp [holdComes]

@[simp] theorem holdTest_held (p : Part) : (holdTest p).feed.held = p.feed.held := by
  unfold holdTest
  split <;> simp

@[simp] theorem holdTest_corrections (p : Part) : (holdTest p).feed.corrections = p.feed.corrections := by
  unfold holdTest
  split <;> simp

@[simp] theorem holdTest_value (p : Part) : (holdTest p).feed.value = p.feed.value := by
  unfold holdTest
  split <;> simp

/-- With no reset released, the feed after an event is that of the hold test. -/
theorem conclude_feed (b : Part) {p : Part} (h : p.boot.resetPending = none ∨ p.link.busOff = false) :
    (conclude b p).feed = (holdTest p).feed := by
  rw [conclude_eq, resetInBusOff_idle h, concludeRest_eq]

@[simp] theorem guidanceTest_feed (p : Part) : (guidanceTest p).feed = p.feed := by
  unfold guidanceTest
  split
  · split <;> rfl
  · rfl

@[simp] theorem guidanceTest_diameter (p : Part) : (guidanceTest p).diameter = p.diameter := by
  unfold guidanceTest
  split
  · split <;> rfl
  · rfl

@[simp] theorem guidanceTest_length (p : Part) : (guidanceTest p).length = p.length := by
  unfold guidanceTest
  split
  · split <;> rfl
  · rfl

@[simp] theorem guidanceTest_conditions (p : Part) : (guidanceTest p).link.conditions = p.link.conditions := by
  unfold guidanceTest
  split
  · split <;> rfl
  · rfl

/-! ### Handing on: what stays -/

/-- From `p` to `q` an entry has been handed on, or more has come of it: the feed has moved, the diameter unit's watches and the
guidance have taken an entry, records may have been written; the length unit stands but for its creep interval. -/
def Handed (p q : Part) : Prop :=
  q = { p with
    table := q.table
    length := { p.length with creep := q.length.creep }
    diameter := { p.diameter with entry := q.diameter.entry, hold := q.diameter.hold, mid := q.diameter.mid }
    feed := q.feed
    monitor := { p.monitor with guidance := q.monitor.guidance }
    link := { p.link with conditions := q.link.conditions, sendList := q.link.sendList } }

protected theorem Handed.rfl (p : Part) : Handed p p := by simp [Handed]

theorem Handed.trans {p q t : Part} (h : Handed p q) (k : Handed q t) : Handed p t := by
  unfold Handed at *
  rw [h] at k
  exact k

/-- The same as `trans`, with the later work named first. -/
theorem Handed.since {p q t : Part} (k : Handed q t) (h : Handed p q) : Handed p t := h.trans k

theorem FeedOnly.handed {p q : Part} (h : FeedOnly p q) : Handed p q := by
  unfold FeedOnly at h
  unfold Handed
  rw [h]

theorem Handed.of_setRecord (i : Fin 8) (r : Option Record) (p : Part) : Handed p (p.setRecord i r) := rfl

theorem Handed.length {p q : Part} (h : Handed p q) : q.length = { p.length with creep := q.length.creep } :=
  congrArg Part.length h

theorem guidanceTest_handed (p : Part) : Handed p (guidanceTest p) := by
  unfold guidanceTest
  split
  · split
    · simp [Handed, place]
    · exact .rfl p
  · exact .rfl p

theorem handOver_handed (e : Option Entry) (fresh : Bool) (p : Part) : Handed p (handOver e fresh p) := by
  have h : Handed p (feedReact e.isSome { p with
      diameter := p.diameter.take p.length.logPos e
      feed := p.feed.take e fresh
      monitor := { p.monitor with guidance := p.monitor.guidance.take e } }) :=
    .since (feedReact_feedOnly _ _).handed rfl
  unfold handOver
  dsimp only
  split
  · exact h.trans (guidanceTest_handed _)
  · exact h

theorem armingHands_handed (a : Arming) (p : Part) : Handed p (armingHands a p) := by
  cases a with
  | nothing => exact .rfl p
  | armed e => exact handOver_handed (some e) true p
  | filler e => exact (FeedOnly.of_raise .filler p).handed.trans (handOver_handed (some e) true _)
  | empty => exact (FeedOnly.of_raise .planEmpty p).handed.trans (handOver_handed none false _)

theorem arm_handed (i : Fin 8) (p : Part) : Handed p (arm i p) := by
  unfold arm
  split
  · exact .rfl p
  · exact (Handed.of_setRecord _ _ _).trans (armingHands_handed _ _)

theorem established_handed (i : Fin 8) (p : Part) : Handed p (established i p) :=
  (feedReferenced_feedOnly p).handed.trans (arm_handed i _)

/-! ### Handing on: what the blocks hold after it -/

@[simp] theorem handOver_held (e : Option Entry) (fresh : Bool) (p : Part) :
    (handOver e fresh p).feed.held = e.map Entry.heldEntry := by
  unfold handOver
  dsimp only
  split <;> simp [Feed.take]

@[simp] theorem handOver_corrections (e : Option Entry) (fresh : Bool) (p : Part) :
    (handOver e fresh p).feed.corrections = if fresh && e.isSome then 0 else p.feed.corrections := by
  unfold handOver
  dsimp only
  split <;> simp [Feed.take]

@[simp] theorem handOver_entry (e : Option Entry) (fresh : Bool) (p : Part) :
    (handOver e fresh p).diameter.entry = e.map (·.plan.minDia) := by
  unfold handOver
  dsimp only
  split <;> simp [(feedReact_feedOnly _ _).diameter, DiameterUnit.take]

theorem handOver_raised (e : Option Entry) (fresh : Bool) (p : Part) {c : Condition} (h : c ≠ .stall) :
    (handOver e fresh p).raised c = p.raised c :=
  ((handOver_works e fresh p).raises c).2 (by simpa [feedRaises] using h)

/-! ### The arming occasion -/

/-- What a part shows of an arming occasion. -/
structure ArmingSeen (i : Fin 8) (p q : Part) : Prop where
  record : q.recordAt i = p.recordAt i
  held : q.feed.held = p.feed.held
  corrections : q.feed.corrections = p.feed.corrections
  entry : q.diameter.entry = p.diameter.entry
  filler : q.raised .filler = p.raised .filler
  planEmpty : q.raised .planEmpty = p.raised .planEmpty

theorem ArmingSeen.trans {i : Fin 8} {p q t : Part} (h : ArmingSeen i p q) (k : ArmingSeen i q t) : ArmingSeen i p t :=
  ⟨k.record.trans h.record, k.held.trans h.held, k.corrections.trans h.corrections, k.entry.trans h.entry,
    k.filler.trans h.filler, k.planEmpty.trans h.planEmpty⟩

/-- An arming occasion met is met as well by what shows the same of it. -/
theorem ArmingMet.seen {i : Fin 8} {r : Record} {p q t : Part} (h : ArmingMet i r p q) (k : ArmingSeen i q t) :
    ArmingMet i r p t := by
  unfold ArmingMet at *
  rw [k.record, k.held, k.corrections, k.entry, k.filler, k.planEmpty]
  exact h

/-- An arming occasion begun at a part that holds the same and has the same settings. -/
theorem ArmingMet.begun {i : Fin 8} {r : Record} {p p' q : Part} (h : ArmingMet i r p q) (hs : p'.store = p.store)
    (held : p.feed.held = p'.feed.held) (corrections : p.feed.corrections = p'.feed.corrections)
    (entry : p.diameter.entry = p'.diameter.entry) (filler : p.raised .filler = p'.raised .filler)
    (planEmpty : p.raised .planEmpty = p'.raised .planEmpty) : ArmingMet i r p' q := by
  have setting : ∀ n, p'.setting n = p.setting n := fun n => by
    unfold Part.setting
    rw [hs]
  unfold ArmingMet at *
  simp only [setting, ← held, ← corrections, ← entry, ← filler, ← planEmpty]
  exact h

theorem arm_of_record {p : Part} {i : Fin 8} {r : Record} (h : p.recordAt i = some r) :
    arm i p = armingHands (p.armingTest r).2 (p.setRecord i (some (p.armingTest r).1)) := by
  simp [arm, h]

/-- The record after an arming occasion is that of the arming test. -/
theorem arm_recordAt {p : Part} {i : Fin 8} {r : Record} (h : p.recordAt i = some r) :
    (arm i p).recordAt i = some (p.armingTest r).1 := by
  rw [arm_of_record h, Part.recordAt, armingHands_table]
  exact recordAt_setRecord_self p i _

theorem arm_others (i : Fin 8) (p : Part) : OtherSlotsKept p (arm i p) i := by
  unfold arm
  split
  · exact .rfl p i
  · exact (setRecord_others p i _).trans (.of_table i (armingHands_table _ _))

theorem arm_bound (i : Fin 8) (p : Part) : (arm i p).table.bound = p.table.bound := by
  unfold arm
  split
  · rfl
  · simp [Part.setRecord]

/-- The arming test finds a PENDING entry. -/
theorem armingTest_armed {p : Part} {r : Record} {e : Entry} {es : List Entry} (h : r.mayArm = true)
    (he : armFirst r.entries = some (e, es)) : p.armingTest r = ({ r with entries := es }, .armed e) := by
  simp [Part.armingTest, h, he]

/-- The arming test finds none, and places a filler. -/
theorem armingTest_filler {p : Part} {r : Record} (h : r.mayArm = true) (he : armFirst r.entries = none) (h6 : p.setting 6 = 1)
    (hl : r.entries.length < 12) : p.armingTest r = (r.appendEntry .armed p.fillerPlan,
      .filler { ident := r.nextIdent, state := .armed, plan := p.fillerPlan, results := none }) := by
  simp [Part.armingTest, h, he, h6, hl, listLimit]

/-- The arming test finds none, and may place no filler. -/
theorem armingTest_empty {p : Part} {r : Record} (h : r.mayArm = true) (he : armFirst r.entries = none)
    (h6 : p.setting 6 ≠ 1 ∨ 12 ≤ r.entries.length) : p.armingTest r = (r, .empty) := by
  have hf : ¬(p.setting 6 = 1 ∧ r.entries.length < 12) := by omega
  simp [Part.armingTest, h, he, hf, listLimit]

@[simp] theorem setRecord_raised (i : Fin 8) (r : Option Record) (p : Part) (c : Condition) :
    (p.setRecord i r).raised c = p.raised c := rfl

/-- An arming occasion is met by `arm` (02 R37 to R40). -/
theorem arm_met {p : Part} {i : Fin 8} {r : Record} (h : p.recordAt i = some r) : ArmingMet i r p (arm i p) := by
  have hrec := arm_recordAt h
  have hands := arm_of_record h
  refine ⟨fun hn => ?_, fun hm e es he => ?_, fun hm he h6 hl => ?_, fun hm he h6 => ?_⟩
  · rw [arm_idle h hn]
    exact ⟨h, rfl, rfl, rfl, rfl, rfl⟩
  · have ht := armingTest_armed (p := p) hm he
    rw [ht] at hrec hands
    rw [hands] at hrec ⊢
    exact ⟨hrec, by simp [armingHands], by simp [armingHands], by simp [armingHands],
      handOver_raised _ _ _ (by simp), handOver_raised _ _ _ (by simp)⟩
  · have ht := armingTest_filler hm he h6 hl
    rw [ht] at hrec hands
    rw [hands] at hrec ⊢
    refine ⟨hrec, by simp [armingHands]; rfl, by simp [armingHands], by simp [armingHands, Part.fillerPlan], ?_, ?_⟩
    · exact (handOver_raised _ _ _ (by simp)).trans (by simp)
    · exact (handOver_raised _ _ _ (by simp)).trans (by simp)
  · have ht := armingTest_empty hm he h6
    rw [ht] at hrec hands
    rw [hands] at hrec ⊢
    refine ⟨hrec, by simp [armingHands], by simp [armingHands], ?_, ?_⟩
    · exact (handOver_raised _ _ _ (by simp)).trans (by simp)
    · exact (handOver_raised _ _ _ (by simp)).trans (by simp)

/-- The feed's reaction to a reference and the end of an event show the same of an arming occasion. -/
theorem FeedOnly.armingSeen {i : Fin 8} {cs : List Condition} {p q : Part} (h : FeedOnly p q) (w : Works cs p q)
    (held : q.feed.held = p.feed.held) (corrections : q.feed.corrections = p.feed.corrections)
    (hc : .filler ∉ cs ∧ .planEmpty ∉ cs) : ArmingSeen i p q :=
  ⟨by rw [Part.recordAt, h.table]; rfl, held, corrections, by rw [h.diameter], (w.raises _).2 hc.1, (w.raises _).2 hc.2⟩

theorem feedReferenced_seen (i : Fin 8) (p : Part) : ArmingSeen i p (feedReferenced p) :=
  (feedReferenced_feedOnly p).armingSeen (feedReferenced_works p) (by simp) (by simp) (by simp [feedRaises])

theorem feedCutOver_seen (i : Fin 8) (p : Part) : ArmingSeen i p (feedCutOver p) :=
  (feedCutOver_feedOnly p).armingSeen (feedCutOver_works p) (by simp) (by simp) (by simp [feedRaises])

theorem conclude_seen (i : Fin 8) (b : Part) {p : Part} (h : p.boot.resetPending = none ∨ p.link.busOff = false) :
    ArmingSeen i p (conclude b p) := by
  have f := conclude_follows b h
  have r := conclude_raises b h
  exact ⟨by rw [Part.recordAt, f.table]; rfl, by rw [conclude_feed b h]; simp, by rw [conclude_feed b h]; simp,
    f.diameterEntry, (r _).2 (by simp [endRaises, feedRaises]), (r _).2 (by simp [endRaises, feedRaises])⟩

/-- A reference established is an arming occasion. -/
theorem established_met {p : Part} {i : Fin 8} {r : Record} (h : p.recordAt i = some r) :
    ArmingMet i r p (established i p) := by
  have s := feedReferenced_seen i p
  exact (arm_met (s.record.trans h)).begun (feedReferenced_feedOnly p).store.symm s.held s.corrections s.entry s.filler s.planEmpty

theorem established_others (i : Fin 8) (p : Part) : OtherSlotsKept p (established i p) i :=
  (OtherSlotsKept.of_table i (feedReferenced_table p)).trans (arm_others i _)

end Sys2Proof.Machine
end

section
namespace Sys2Proof.Machine

/-! ### The end sensor's qualifier -/

/-- The part once a pending end-sensor change has qualified (03 R73). -/
def qualified (p : Part) : Part :=
  { p with length := { p.length with endPending := none, endCovered := !p.length.endCovered } }

/-- Short of 5 mm a pending change stays pending. -/
theorem endQualify_short {p : Part} {noted : Int} (h : p.length.endPending = some noted) (hlo : noted - 5000 < p.length.head)
    (hhi : p.length.head < noted + 5000) : endQualify p = p := by
  unfold endQualify
  rw [h]
  exact if_neg (by omega)

theorem endQualify_none {p : Part} (h : p.length.endPending = none) : endQualify p = p := by
  unfold endQualify
  rw [h]

/-- A change from clear to covered qualifies and does no more. -/
theorem endQualify_covers {p : Part} {noted : Int} (h : p.length.endPending = some noted) (hc : p.length.endCovered = false)
    (hq : 5000 ≤ p.length.head - noted ∨ p.length.head - noted ≤ -5000) : endQualify p = qualified p := by
  unfold endQualify
  rw [h]
  dsimp only
  rw [if_pos hq, if_pos hc]
  rfl

/-- A change from covered to clear in reverse references the stem (R74). -/
theorem endQualify_reverse {p : Part} {noted : Int} (h : p.length.endPending = some noted) (hc : p.length.endCovered = true)
    (hq : p.length.head - noted ≤ -5000) : endQualify p = referenceStem (qualified p) := by
  unfold endQualify
  rw [h]
  dsimp only
  rw [if_pos (.inr hq), if_neg (by simp [hc]), if_neg (by omega)]
  rfl

/-- A change from covered to clear forward reports the top (R75). -/
theorem endQualify_forward {p : Part} {noted : Int} (h : p.length.endPending = some noted) (hc : p.length.endCovered = true)
    (hq : 5000 ≤ p.length.head - noted) : endQualify p = reportTop (qualified p) := by
  unfold endQualify
  rw [h]
  dsimp only
  rw [if_pos (.inl hq), if_neg (by simp [hc]), if_pos hq]
  rfl

/-! ### The reference at the end sensor -/

/-- The units as the end sensor references the stem (R74): the log begins at minus END_SENSOR_OFFSET. -/
def referencedUnits (p : Part) : Part :=
  { p with
    length := { p.length with
      logPos := some (-(p.endOffset * 1000)), history := some (p.freshLog (-(p.endOffset * 1000))), mirror := true }
    diameter := p.diameter.newLog }

/-- Where R74 allows it the end sensor references the stem. -/
theorem referenceStem_allowed {p : Part} {i : Fin 8} {r : Record} (hi : p.activeSlot = some i) (hr : p.recordAt i = some r)
    (h : p.length.mirror = false ∧ (p.monitor.profile ≠ .fellProcess ∨ r.felled = true) ∧ p.boundTo i = false) :
    referenceStem p = referenceReport (referencedUnits p) := by
  unfold referenceStem
  rw [hi, activeRecord_of_slot hi, hr]
  exact if_pos h

theorem referenceStem_barred {p : Part} {i : Fin 8} {r : Record} (hi : p.activeSlot = some i) (hr : p.recordAt i = some r)
    (h : ¬(p.length.mirror = false ∧ (p.monitor.profile ≠ .fellProcess ∨ r.felled = true) ∧ p.boundTo i = false)) :
    referenceStem p = p := by
  unfold referenceStem
  rw [hi, activeRecord_of_slot hi, hr]
  exact if_neg h

/-- A reference report makes a record without reference END_SENSED. -/
theorem referenceReport_establishes {p : Part} {i : Fin 8} {r : Record} (hi : p.activeSlot = some i) (hr : p.recordAt i = some r)
    (h : r.reference = .none) :
    referenceReport p = established i (p.setRecord i (some { r with reference := .endSensed })) := by
  unfold referenceReport
  rw [hi, activeRecord_of_slot hi, hr]
  exact if_pos h

theorem referenceReport_idle {p : Part} {i : Fin 8} {r : Record} (hi : p.activeSlot = some i) (hr : p.recordAt i = some r)
    (h : r.reference ≠ .none) : referenceReport p = p := by
  unfold referenceReport
  rw [hi, activeRecord_of_slot hi, hr]
  exact if_neg h

theorem referenceReport_handed (p : Part) : Handed p (referenceReport p) := by
  unfold referenceReport
  split
  · split
    · exact (Handed.of_setRecord _ _ _).trans (established_handed _ _)
    · exact .rfl p
  · exact .rfl p

theorem referenceReport_others {p : Part} {i : Fin 8} {r : Record} (hi : p.activeSlot = some i) (hr : p.recordAt i = some r) :
    OtherSlotsKept p (referenceReport p) i := by
  by_cases h : r.reference = .none
  · rw [referenceReport_establishes hi hr h]
    exact (setRecord_others p i _).trans (established_others i _)
  · rw [referenceReport_idle hi hr h]
    exact .rfl p i

theorem armingTest_keeps (p : Part) (r : Record) :
    (p.armingTest r).1.reference = r.reference ∧ (p.armingTest r).1.totals = r.totals := by
  unfold Part.armingTest
  repeat' split
  all_goals exact ⟨rfl, rfl⟩

/-! ### The top -/

theorem reportTop_reports {p : Part} {i : Fin 8} {r : Record} {pos : Int} (hi : p.activeSlot = some i)
    (hr : p.recordAt i = some r) (href : r.reference ≠ .none) (hp : p.logMm = some pos) :
    reportTop p = topReport (pos + p.endOffset) p := by
  have h : p.referenced = true := by
    unfold Part.referenced
    rw [activeRecord_of_slot hi, hr]
    exact (established_eq r).mpr href
  unfold reportTop
  rw [hp]
  exact if_pos h

theorem topReport_waits {p : Part} {i : Fin 8} {r : Record} {x : Int} (hi : p.activeSlot = some i) (hr : p.recordAt i = some r)
    (hs : r.topSeen = false) (hw : p.topWaits i r x = true) :
    topReport x p = p.setRecord i (some { r with topSeen := true, held := some x }) := by
  unfold topReport
  rw [hi, activeRecord_of_slot hi, hr]
  dsimp only
  rw [if_neg (by simp [hs]), if_pos hw]

theorem topReport_finishes {p : Part} {i : Fin 8} {r : Record} {x : Int} (hi : p.activeSlot = some i)
    (hr : p.recordAt i = some r) (hs : r.topSeen = false) (hw : p.topWaits i r x = false) :
    topReport x p = finishTop i r x p := by
  unfold topReport
  rw [hi, activeRecord_of_slot hi, hr]
  dsimp only
  rw [if_neg (by simp [hs]), if_neg (by simp [hw])]

theorem topWaits_iff (p : Part) (i : Fin 8) (r : Record) (x : Int) : p.topWaits i r x = true ↔
    p.boundTo i = true ∨ ∃ e, r.armed = some e ∧ e.plan.target - e.plan.minus ≤ x := by
  unfold Part.topWaits
  rcases r.armed with _ | e <;> simp

/-- What a finish by the top leaves (01 R19, R20). -/
theorem finishTop_spec (i : Fin 8) (r : Record) (x : Int) (p : Part) :
    (finishTop i r x p).table = (p.setRecord i (some (r.finishTop x))).table
      ∧ (finishTop i r x p).feed.value = .idle ∧ (finishTop i r x p).feed.state = .idle
      ∧ (finishTop i r x p).feed.held = none
      ∧ (finishTop i r x p).link.sendList =
          p.link.sendList ++ [.notice (.stemState (p.stemId i) .finished .top r.dropCount (some x))] := by
  obtain ⟨hv, hs, hh, -, -, -, -, -, hl⟩ := feedEnd_spec (endedUnits (place
    (.stemState (p.stemId i) .finished .top r.dropCount (some x)) (p.setRecord i (some (r.finishTop x)))))
  refine ⟨?_, hv, hs, hh, ?_⟩
  · exact endPeriod_table _
  · unfold finishTop
    rw [endPeriod_eq, hl]
    rfl

/-- Settles O41: in reverse `referenceStem` and the arming that follows, forward `topReport`, short of 5 mm nothing. -/
theorem endSensorReferencesAndReportsTheTop : Obligations.EndSensorReferencesAndReportsTheTop := by
  intro p noted i r hp hc hi hr
  refine ⟨fun hq hm href hfell hb => ?_, fun pos hq href hpos hs => ?_, endQualify_short hp⟩
  · rw [endQualify_reverse hp hc (by omega), referenceStem_allowed (p := qualified p) hi hr ⟨hm, hfell, hb⟩,
      referenceReport_establishes (p := referencedUnits (qualified p)) hi hr href]
    have hrec : (feedReferenced ((referencedUnits (qualified p)).setRecord i (some { r with reference := .endSensed }))).recordAt i
        = some { r with reference := .endSensed } :=
      (feedReferenced_seen i _).record.trans (recordAt_setRecord_self _ i _)
    obtain ⟨kref, ktot⟩ := armingTest_keeps
      (feedReferenced ((referencedUnits (qualified p)).setRecord i (some { r with reference := .endSensed })))
      { r with reference := .endSensed }
    have hl := (established_handed i ((referencedUnits (qualified p)).setRecord i (some { r with reference := .endSensed }))).length
    have others := (setRecord_others (referencedUnits (qualified p)) i (some { r with reference := .endSensed })).trans
      (established_others i _)
    refine ⟨_, arm_recordAt hrec, kref, ktot, ?_, ?_, ?_, ?_, ?_, others⟩
    · rw [hl]; exact congrArg not hc
    · rw [hl]; rfl
    · rw [hl]; rfl
    · rw [hl]; rfl
    · rw [hl]; rfl
  · have offset : (qualified p).endOffset = p.endOffset := rfl
    rw [endQualify_forward hp hc (by omega), reportTop_reports (p := qualified p) hi hr href hpos, offset]
    refine ⟨fun hw => ?_, fun hb ha => ?_⟩
    · have w : (qualified p).topWaits i r (pos + p.endOffset) = true := (topWaits_iff _ _ _ _).mpr hw
      rw [topReport_waits (p := qualified p) hi hr hs w]
      exact ⟨recordAt_setRecord_self _ i _, rfl, setRecord_others (qualified p) i _⟩
    · have w : (qualified p).topWaits i r (pos + p.endOffset) = false := by
        by_contra k
        rcases (topWaits_iff _ _ _ _).mp (by simpa using k) with k | ⟨e, he, k⟩
        · exact absurd k (by rw [show (qualified p).boundTo i = p.boundTo i from rfl, hb]; simp)
        · exact absurd (ha e he) (by omega)
      have top := topReport_finishes (p := qualified p) hi hr hs w
      obtain ⟨ht, hv, hst, -, hlist⟩ := finishTop_spec i r (pos + p.endOffset) (qualified p)
      rw [top]
      obtain ⟨trec, tothers, -, -⟩ := written_table ht
      exact ⟨trec, hv, hst, hlist, tothers⟩

/-! ### Running an event -/

/-- A command whose row changes the part by `f` runs to what `f` makes of it. -/
theorem runs_on {c : Instr} {s : State} {f : Part → Part} {q : Part} (h : exec c s = s.on f) (k : f s.part = q) :
    Runs c s q := by
  unfold Runs
  rw [h, State.on, k]

theorem perform_on {may : Bool} {f : Part → Part} {p : Part} (hon : p.powered = true) (hm : may = true) :
    perform may f p = conclude p (f p) := by simp [perform, hon, hm]

theorem perform_off {may : Bool} {f : Part → Part} {p : Part} (hm : may = false) : perform may f p = p := by
  simp [perform, hm]

theorem sense_on {f : Part → Part} {pins : Pins → Pins} {p : Part} (hon : p.powered = true) :
    sense f pins p = conclude p (f p) := by simp [sense, hon]

/-! ### The drop -/

/-- A drop report on the ACTIVE record, stage by stage. -/
theorem dropReport_active {p : Part} {i : Fin 8} {r : Record} (hi : p.activeSlot = some i) (hr : p.recordAt i = some r) :
    dropReport p = place (.stemState (p.stemId i) .dropped .drop r.drop.dropCount none)
      (raise .drop (rescale p (endPeriod (p.setRecord i (some r.drop))))) := by
  unfold dropReport
  rw [hi, activeRecord_of_slot hi, hr]
  dsimp only
  rw [stemId_setRecord]

/-- What is in force depends on the settings and species, the stem table, the wheel's contact and its suspicion. -/
theorem inForce_congr {p q : Part} (hs : q.store = p.store) (ht : q.table = p.table) (hc : q.length.contact = p.length.contact)
    (hu : q.length.suspect = p.length.suspect) : q.inForce = p.inForce := by
  have setting : ∀ n, q.setting n = p.setting n := fun n => by unfold Part.setting; rw [hs]
  have hrec : q.recordAt = p.recordAt := by funext i; unfold Part.recordAt; rw [ht]
  have hact : q.isActive = p.isActive := by funext i; unfold Part.isActive; rw [hrec]
  have hslot : q.activeSlot = p.activeSlot := by unfold Part.activeSlot; rw [hact]
  have value : ∀ f, q.speciesValue f = p.speciesValue f := fun f => by
    unfold Part.speciesValue Part.inUse Part.activeRecord
    rw [hslot, hrec, hs]
  have valid : q.wheelValid = p.wheelValid := by unfold Part.wheelValid; rw [hc, hu]
  have source : q.source = p.source := by unfold Part.source; rw [setting, valid]
  unfold Part.inForce Part.wheelPitch Part.rollerPitch Part.wheelCorr Part.rollerCorr
  simp only [source, setting, value]

theorem rescale_carry (p q : Part) : (rescale p q).length.carry = if p.inForce = q.inForce then q.length.carry
    else q.length.carry.map fun c => { c with log := { c.log with mark := .mixed } } := by
  unfold rescale
  dsimp only
  split <;> rfl

/-- Without a log history a change of scale touches no more than the carry and the slip window. -/
theorem rescale_of_noHistory (p : Part) {q : Part} (h : q.length.history = none) : rescale p q = { q with
    length := { q.length with carry := (rescale p q).length.carry, slip := (rescale p q).length.slip } } := by
  unfold rescale
  dsimp only
  split
  · rfl
  · simp only [LengthUnit.mixed, h, Option.map_none]

theorem Follows.carry {p q : Part} (h : Follows p q) : q.length.carry = p.length.carry := by rw [h]

/-- The same carry put in place of both sides'. -/
theorem Follows.with_carry {p q : Part} (h : Follows p q) (c : Option Carry) :
    Follows { p with length := { p.length with carry := c } } { q with length := { q.length with carry := c } } := by
  unfold Follows at *
  exact congrArg (fun x : Part => { x with length := { x.length with carry := c } }) h

/-- READY waits for the lines alone: an event that leaves them and the settings leaves it. -/
theorem conclude_boot {b p : Part} (h : p.boot.resetPending = none ∨ p.link.busOff = false)
    (hr : (!p.boot.ready && p.linesReady) = false) : (conclude b p).boot = p.boot := by
  have f := holdTest_feedOnly p
  have lines : (holdTest p).linesReady = p.linesReady := by
    rw [f]
    rfl
  rw [conclude_eq, resetInBusOff_idle h, concludeRest_eq]
  dsimp only
  rw [f.boot, lines, if_neg (by simp [hr])]

/-- The part whose period the drop of the record `r` in slot `i` has ended. -/
def dropEnded (p : Part) (i : Fin 8) (r : Record) : Part := endPeriod (p.setRecord i (some r.drop))

theorem dropEnded_feedOnly (p : Part) (i : Fin 8) (r : Record) :
    FeedOnly (endedUnits (p.setRecord i (some r.drop))) (dropEnded p i r) := feedEnd_feedOnly _

theorem dropEnded_link (p : Part) (i : Fin 8) (r : Record) : (dropEnded p i r).link = p.link := by
  obtain ⟨-, -, -, -, -, -, -, -, hlink⟩ := feedEnd_spec (endedUnits (p.setRecord i (some r.drop)))
  exact hlink

/-- The STEM_STATE notice of a drop report. -/
def dropNotice (p : Part) (i : Fin 8) (r : Record) : Notice :=
  .stemState (p.stemId i) .dropped .drop (min (r.dropCount + 1) 15) none

theorem dropReport_ended {p : Part} {i : Fin 8} {r : Record} (hi : p.activeSlot = some i) (hr : p.recordAt i = some r) :
    dropReport p = place (dropNotice p i r) (raise .drop (rescale p (dropEnded p i r))) := dropReport_active hi hr

theorem dropReport_link {p : Part} {i : Fin 8} {r : Record} (hi : p.activeSlot = some i) (hr : p.recordAt i = some r) :
    (dropReport p).link = (place (dropNotice p i r) (raise .drop p)).link := by
  rw [dropReport_ended hi hr]
  unfold place raise Part.raised
  rw [show (rescale p (dropEnded p i r)).link = p.link from dropEnded_link p i r]

theorem dropReport_boot {p : Part} {i : Fin 8} {r : Record} (hi : p.activeSlot = some i) (hr : p.recordAt i = some r) :
    (dropReport p).boot = p.boot := by
  rw [dropReport_ended hi hr]
  exact (dropEnded_feedOnly p i r).boot

theorem dropReport_busOff {p : Part} {i : Fin 8} {r : Record} (hi : p.activeSlot = some i) (hr : p.recordAt i = some r) :
    (dropReport p).link.busOff = p.link.busOff := by
  rw [dropReport_link hi hr]
  rfl

theorem dropReport_entry {p : Part} {i : Fin 8} {r : Record} (hi : p.activeSlot = some i) (hr : p.recordAt i = some r) :
    (dropReport p).diameter.entry = none := by
  rw [dropReport_ended hi hr]
  exact congrArg DiameterUnit.entry (dropEnded_feedOnly p i r).diameter

theorem dropReport_table {p : Part} {i : Fin 8} {r : Record} (hi : p.activeSlot = some i) (hr : p.recordAt i = some r) :
    (dropReport p).table = (p.setRecord i (some r.drop)).table := by
  rw [dropReport_ended hi hr]
  exact (dropEnded_feedOnly p i r).table

theorem dropReport_feed {p : Part} {i : Fin 8} {r : Record} (hi : p.activeSlot = some i) (hr : p.recordAt i = some r) :
    (dropReport p).feed = (dropEnded p i r).feed := by
  rw [dropReport_ended hi hr]
  rfl

theorem dropEnded_carry (p : Part) (i : Fin 8) (r : Record) : (dropEnded p i r).length.carry = p.length.carry :=
  (dropEnded_feedOnly p i r).carry

theorem dropReport_carry {p : Part} {i : Fin 8} {r : Record} (hi : p.activeSlot = some i) (hr : p.recordAt i = some r) :
    (dropReport p).length.carry = (rescale p (dropEnded p i r)).length.carry := by
  rw [dropReport_ended hi hr]
  rfl

theorem dropReport_linesReady {p : Part} {i : Fin 8} {r : Record} (hi : p.activeSlot = some i) (hr : p.recordAt i = some r) :
    (dropReport p).linesReady = p.linesReady := by
  rw [dropReport_ended hi hr]
  change (dropEnded p i r).linesReady = _
  rw [show dropEnded p i r = _ from dropEnded_feedOnly p i r]
  rfl

theorem rescale_contact (p q : Part) : (rescale p q).length.contact = q.length.contact := by
  unfold rescale
  dsimp only
  split <;> rfl

theorem rescale_suspect (p q : Part) : (rescale p q).length.suspect = q.length.suspect := by
  unfold rescale
  dsimp only
  split <;> rfl

theorem dropReport_inForce {p : Part} {i : Fin 8} {r : Record} (hi : p.activeSlot = some i) (hr : p.recordAt i = some r) :
    (dropReport p).inForce = (dropEnded p i r).inForce := by
  rw [dropReport_ended hi hr]
  exact inForce_congr rfl rfl (rescale_contact p _) (rescale_suspect p _)

theorem Follows.inForce {p q : Part} (h : Follows p q) : q.inForce = p.inForce :=
  inForce_congr h.headWork.store h.table (by rw [h]) (by rw [h])

/-- The parts of a drop report that only end the period, seen past its records and carry. -/
theorem dropReport_follows {p : Part} {i : Fin 8} {r : Record} (hi : p.activeSlot = some i) (hr : p.recordAt i = some r) :
    Follows { endedUnits (p.setRecord i (some r.drop)) with
      length := { (endedUnits (p.setRecord i (some r.drop))).length with carry := (dropReport p).length.carry } }
      (dropReport p) := by
  have only := dropEnded_feedOnly p i r
  have hist : (dropEnded p i r).length.history = none := by
    rw [show dropEnded p i r = _ from only]
    rfl
  have ended : Follows (endedUnits (p.setRecord i (some r.drop))) (dropEnded p i r) := only.follows
  have scaled : Follows { dropEnded p i r with length := { (dropEnded p i r).length with
      carry := (rescale p (dropEnded p i r)).length.carry } } (rescale p (dropEnded p i r)) := by
    rw [rescale_of_noHistory p hist]
    rfl
  have told : Follows (rescale p (dropEnded p i r)) (dropReport p) := by
    rw [dropReport_ended hi hr]
    rfl
  rw [dropReport_carry hi hr]
  exact ((ended.with_carry _).trans scaled).trans told

theorem conclude_sendList_of_noEntry (b : Part) {p : Part} (hp : p.boot.resetPending = none ∨ p.link.busOff = false)
    (he : p.diameter.entry = none) (h0 : p.link.busOff = false) :
    (conclude b p).link.sendList = p.link.sendList.take 16 := by
  rw [conclude_of_noEntry b hp he, concludeRest_eq]
  dsimp only
  rw [h0]
  rfl

/-- Settles O46: the ACTIVE record is written, the period ends, the scale may change, DROP and STEM_STATE follow; with no entry held
after it only the plain stages are left. -/
theorem dropTimerDropsTheStem : Obligations.DropTimerDropsTheStem := by
  intro s hs hon
  refine ⟨fun h => runs_on rfl (perform_off (by simp [h])), fun i r hd hi hr hb => ?_⟩
  set p := s.part with hp
  have pend : (dropReport p).boot.resetPending = none ∨ (dropReport p).link.busOff = false := by
    rwa [dropReport_boot hi hr, dropReport_busOff hi hr]
  have entry := dropReport_entry hi hr
  obtain ⟨hval, hstate, hheld, hcorr, hdirect, hrequest, hseek, hstall, -⟩ :=
    feedEnd_spec (endedUnits (p.setRecord i (some r.drop)))
  obtain ⟨cfeed, ccond⟩ := conclude_feed_of_noEntry p pend entry
  rw [dropReport_feed hi hr] at cfeed
  have fol := conclude_follows p pend
  have table := fol.table.trans (dropReport_table hi hr)
  obtain ⟨trec, tothers, tid, tbound⟩ := written_table table
  have cond : (conclude p (dropReport p)).link.conditions = (raise .drop p).link.conditions := by
    rw [ccond, dropReport_link hi hr]
    rfl
  have raised : ∀ c, (conclude p (dropReport p)).raised c = (p.raised c || decide (.drop = c)) := fun c => by
    rw [← raised_raise]
    unfold Part.raised
    rw [cond]
  have carry : (conclude p (dropReport p)).length.carry = (rescale p (dropEnded p i r)).length.carry :=
    fol.carry.trans (dropReport_carry hi hr)
  have force : (conclude p (dropReport p)).inForce = (dropEnded p i r).inForce := fol.inForce.trans (dropReport_inForce hi hr)
  have list : p.link.busOff = false → (conclude p (dropReport p)).link.sendList
      = ((raise .drop p).link.sendList ++ [SendItem.notice (dropNotice p i r)]).take 16 := fun h0 => by
    rw [conclude_sendList_of_noEntry p pend entry ((dropReport_busOff hi hr).trans h0), dropReport_link hi hr]
    rfl
  refine ⟨conclude p (dropReport p), runs_on rfl (perform_on hon (Option.isSome_iff_ne_none.mpr hd)), trec, tothers, tid, tbound, ?_⟩
  rw [cfeed, force, carry, rescale_carry, dropEnded_carry]
  refine ⟨hval, hstate, hheld, hcorr, hdirect, hrequest, by simp [raised], fun c => ?_, hseek, hstall, fun k => if_pos k,
    fun k => if_neg k, ?_, ?_, fun hm h0 => ?_, fun h1 h2 h0 => ?_⟩
  · rw [raised c]
    exact ⟨fun _ h => by simp [h], fun h => by
      have : Condition.drop ≠ c := fun k => h (by simp [k])
      simp [this]⟩
  · refine (conclude_boot pend ?_).trans (dropReport_boot hi hr)
    rw [dropReport_boot hi hr, dropReport_linesReady hi hr]
    exact (hs.quiet hon).ready
  · have all := (dropReport_follows hi hr).trans fol
    rw [dropReport_carry hi hr, rescale_carry, dropEnded_carry] at all
    rw [table]
    exact all
  · rw [list h0]
    unfold raise
    dsimp only
    rw [if_pos (by simpa using hm)]
    rfl
  · rw [list h0, cond]
    unfold raise
    dsimp only
    rw [if_neg (by simp [h1, h2]), List.append_assoc]
    rfl

end Sys2Proof.Machine
end

section
namespace Sys2Proof.Machine

/-! ### What a completion changes -/

/-- From `p` to `q` the stem table and the blocks it hands to have worked: records, measuring units, feed and guidance may have
changed, conditions been raised and notices placed; saw, knives, start-up and the rest stand. -/
def PlanWork (p q : Part) : Prop :=
  q = { p with
    table := q.table, length := q.length, diameter := q.diameter, feed := q.feed
    monitor := { p.monitor with guidance := q.monitor.guidance }
    link := { p.link with conditions := q.link.conditions, sendList := q.link.sendList } }

protected theorem PlanWork.rfl (p : Part) : PlanWork p p := by simp [PlanWork]

theorem PlanWork.trans {p q t : Part} (h : PlanWork p q) (k : PlanWork q t) : PlanWork p t := by
  unfold PlanWork at *
  rw [h] at k
  exact k

/-- The same as `trans`, with the later work named first. -/
theorem PlanWork.since {p q t : Part} (k : PlanWork q t) (h : PlanWork p q) : PlanWork p t := h.trans k

theorem Handed.planWork {p q : Part} (h : Handed p q) : PlanWork p q := by
  unfold Handed at h
  unfold PlanWork
  rw [h]

theorem PlanWork.saw {p q : Part} (h : PlanWork p q) : q.saw = p.saw := by rw [h]
theorem PlanWork.boot {p q : Part} (h : PlanWork p q) : q.boot = p.boot := by rw [h]
theorem PlanWork.busOff {p q : Part} (h : PlanWork p q) : q.link.busOff = p.link.busOff := by rw [h]

theorem endPeriod_planWork (p : Part) : PlanWork p (endPeriod p) := .since (feedEnd_feedOnly _).handed.planWork rfl

theorem finishTop_planWork (i : Fin 8) (r : Record) (x : Int) (p : Part) : PlanWork p (finishTop i r x p) :=
  .since (endPeriod_planWork _) rfl

theorem afterLog_planWork (i : Fin 8) (r : Record) (x : Int) (p : Part) : PlanWork p (afterLog i r x p) := by
  unfold afterLog
  split
  · exact finishTop_planWork _ _ _ p
  · exact (arm_handed i p).planWork

/-- The part once a completed cut is recorded, announced and unbound, before what follows in an ACTIVE record. -/
def recorded (i : Fin 8) (active : Bool) (r : Record) (n : Notice) (p : Part) : Part :=
  { place n ((rebase active p).setRecord i (some r)) with
    table := { (place n ((rebase active p).setRecord i (some r))).table with bound := none } }

theorem rebase_planWork (active : Bool) (p : Part) : PlanWork p (rebase active p) := by
  unfold rebase
  repeat' split
  · rfl
  · exact .rfl p
  · rfl

theorem recorded_planWork (i : Fin 8) (active : Bool) (r : Record) (n : Notice) (p : Part) :
    PlanWork p (recorded i active r n p) := .since (q := rebase active p) rfl (rebase_planWork active p)

@[simp] theorem rebase_feed (active : Bool) (p : Part) : (rebase active p).feed = p.feed := by
  unfold rebase
  repeat' split
  all_goals rfl

@[simp] theorem rebase_link (active : Bool) (p : Part) : (rebase active p).link = p.link := by
  unfold rebase
  repeat' split
  all_goals rfl

@[simp] theorem rebase_entry (active : Bool) (p : Part) : (rebase active p).diameter.entry = p.diameter.entry := by
  unfold rebase
  repeat' split
  all_goals rfl

/-- A completion bound to a reference. -/
theorem cutComplete_reference {p : Part} {b : BoundCut} {r : Record} {prof : Profile} {d : Option Nat}
    (hb : p.table.bound = some b) (hr : p.recordAt b.slot = some r) (ht : b.target = .reference prof d) :
    cutComplete p =
      let t := recorded b.slot (r.state == .active) (r.recordReference prof d)
        (cutDoneNotice (p.stemId b.slot) b (r.recordReference prof d) .reference none) p
      if r.state = .active then established b.slot t else t := by
  unfold cutComplete
  simp only [hb, hr, ht]
  rfl

/-- A completion of a log cut. -/
theorem cutComplete_log {p : Part} {b : BoundCut} {r : Record} (hb : p.table.bound = some b) (hr : p.recordAt b.slot = some r)
    (ht : ∀ prof d, b.target ≠ .reference prof d) :
    cutComplete p =
      let c := r.recordCut b.kind b.target
      let t := recorded b.slot (r.state == .active) c.1 (cutDoneNotice (p.stemId b.slot) b c.1 c.2.1 c.2.2) p
      if r.state = .active then afterLog b.slot c.1 ((b.target.results.map (·.actual)).getD 0) t else t := by
  unfold cutComplete
  simp only [hb, hr]
  rcases h : b.target with ⟨prof, d⟩ | ⟨ident, x⟩ | x
  · exact absurd h (ht prof d)
  · rfl
  · rfl

theorem cutComplete_unbound {p : Part} (h : p.table.bound = none) : cutComplete p = p := by
  unfold cutComplete
  rw [h]

theorem cutComplete_free {p : Part} {b : BoundCut} (h : p.table.bound = some b) (hr : p.recordAt b.slot = none) :
    cutComplete p = { p with table := { p.table with bound := none } } := by
  unfold cutComplete
  simp only [h, hr]

theorem cutComplete_planWork (p : Part) : PlanWork p (cutComplete p) := by
  rcases hb : p.table.bound with _ | b
  · rw [cutComplete_unbound hb]
    exact .rfl p
  rcases hr : p.recordAt b.slot with _ | r
  · rw [cutComplete_free hb hr]
    rfl
  by_cases ht : ∃ prof d, b.target = .reference prof d
  · obtain ⟨prof, d, ht⟩ := ht
    rw [cutComplete_reference hb hr ht]
    dsimp only
    split
    · exact (recorded_planWork _ _ _ _ p).trans (established_handed _ _).planWork
    · exact recorded_planWork _ _ _ _ p
  · rw [cutComplete_log hb hr fun prof d h => ht ⟨prof, d, h⟩]
    dsimp only
    split
    · exact (recorded_planWork _ _ _ _ p).trans (afterLog_planWork _ _ _ _)
    · exact recorded_planWork _ _ _ _ p

/-! ### What is seen of a completion once the event is over -/

/-- From `x`, which a completion has left, to `q`: the feed whose request has ended and the end of the event change nothing that is
said of a completion. -/
structure Over (x q : Part) : Prop where
  table : q.table = x.table
  seen : ∀ i, ArmingSeen i x q
  idle : x.feed.state = .idle → x.diameter.entry = none → q.feed.state = .idle ∧ q.feed.value = x.feed.value
  carry : q.length.carry = x.length.carry
  logPos : q.length.logPos = x.length.logPos
  history : q.length.history = x.length.history
  mid : q.diameter.mid = x.diameter.mid
  list : x.link.busOff = false → ∀ l, l <+: x.link.sendList → l.length ≤ 16 → l <+: q.link.sendList

theorem Over.of_conclude (b : Part) {x : Part} (h : x.boot.resetPending = none ∨ x.link.busOff = false) :
    Over x (conclude b x) where
  table := (conclude_follows b h).table
  seen i := conclude_seen i b h
  idle hs he := by
    rw [(conclude_feed_of_noEntry b h he).1]
    exact ⟨hs, rfl⟩
  carry := (conclude_follows b h).carry
  logPos := by rw [conclude_follows b h]
  history := by rw [conclude_follows b h]
  mid := by rw [conclude_follows b h]
  list hb l hl h16 := conclude_keeps_prefix b h hb hl h16

theorem feedCutOver_of_idle {x : Part} (h : x.feed.state = .idle) : feedCutOver x = x := by
  simp [feedCutOver, Feed.cutTaken, h]

theorem Over.of_feedCutOver {x q : Part} (h : Over (feedCutOver x) q) : Over x q where
  table := h.table.trans (feedCutOver_table x)
  seen i := (feedCutOver_seen i x).trans (h.seen i)
  idle hs he := by
    rw [feedCutOver_of_idle hs] at h
    exact h.idle hs he
  carry := h.carry.trans (feedCutOver_feedOnly x).carry
  logPos := h.logPos.trans (feedCutOver_feedOnly x).logPos
  history := h.history.trans (by rw [feedCutOver_feedOnly x])
  mid := h.mid.trans (by rw [(feedCutOver_feedOnly x).diameter])
  list hb l hl h16 := h.list ((feedCutOver_feedOnly x).busOff.trans hb) l (hl.trans (feedCutOver_works x).list) h16

/-! ### The record's part -/

section Recorded

variable {p : Part} {i : Fin 8} {active : Bool} {r : Record} {n : Notice}

theorem recorded_recordAt : (recorded i active r n p).recordAt i = some r := recordAt_setRecord_self (rebase active p) i _

theorem recorded_others : OtherSlotsKept p (recorded i active r n p) i :=
  (OtherSlotsKept.of_table i (rebase_table active p)).trans (setRecord_others (rebase active p) i (some r))

theorem recorded_stemId (j : Fin 8) : (recorded i active r n p).stemId j = p.stemId j := by
  have h := stemId_setRecord (rebase active p) i j (some r)
  have h' : (rebase active p).stemId j = p.stemId j := by unfold Part.stemId; rw [rebase_table]
  exact (h.trans h' : _)

theorem recorded_list : (recorded i active r n p).link.sendList = p.link.sendList ++ [.notice n] := by
  simp [recorded, place]

theorem recorded_conditions : (recorded i active r n p).link.conditions = p.link.conditions := by
  simp [recorded]

/-- An arming occasion that follows the record of a completion is one of the part before it. -/
theorem ArmingMet.of_recorded {r' : Record} {q : Part} (h : ArmingMet i r' (recorded i active r n p) q) :
    ArmingMet i r' p q :=
  h.begun (by rw [recorded_planWork i active r n p]) (by simp [recorded]) (by simp [recorded]) (by simp [recorded])
    (by unfold Part.raised; rw [recorded_conditions]) (by unfold Part.raised; rw [recorded_conditions])

/-- A completion's notice comes first. -/
theorem cutDone_first {x q : Part} (w : Works armRaises (recorded i active r n p) x) (o : Over x q)
    (hx : x.link.busOff = p.link.busOff) (hb : p.link.busOff = false) (h16 : p.link.sendList.length < 16) :
    p.link.sendList ++ [.notice n] <+: q.link.sendList := by
  have h := w.list
  rw [recorded_list] at h
  exact o.list (hx.trans hb) _ h (by simp; omega)

/-- What follows a recorded log cut, seen once the event is over (02 R45, R49). -/
theorem logFollowed {actual : Int} {q : Part}
    (o : Over (if r.state = .active then afterLog i r actual (recorded i active r n p) else recorded i active r n p) q) :
    LogFollowed i r actual p q := by
  refine ⟨fun hs => ?_, fun hs ht => ?_, fun hs ht => ?_⟩
  · rw [if_neg hs] at o
    exact (o.seen i).record.trans recorded_recordAt
  · rw [if_pos hs, afterLog, if_neg (by simp [ht])] at o
    exact ((arm_met recorded_recordAt).seen (o.seen i)).of_recorded
  · rw [if_pos hs, afterLog, if_pos ht] at o
    obtain ⟨xt, xv, xs, xh, xl⟩ := finishTop_spec i r (max 0 (r.held.getD 0 - actual)) (recorded i active r n p)
    have xe : (finishTop i r (max 0 (r.held.getD 0 - actual)) (recorded i active r n p)).diameter.entry = none := by
      unfold finishTop
      rw [endPeriod_eq, (feedEnd_feedOnly _).diameter]
      rfl
    obtain ⟨qs, qv⟩ := o.idle xs xe
    refine ⟨?_, qv.trans xv, qs, (o.seen i).held.trans xh, fun hb h15 => ?_⟩
    · rw [(o.seen i).record, (written_table xt).1]
      simp only [Record.finishTop, Record.finish, ht]
    · rw [recorded_list, recorded_stemId] at xl
      refine (o.list ?_ _ (by rw [xl]) (by simp; omega)).subset (by simp)
      rw [(finishTop_planWork _ _ _ _).busOff, (recorded_planWork _ _ _ _ _).busOff, hb]

end Recorded

/-- The place that `afterDone` names lies directly behind the last DONE entry (02 R43). -/
theorem afterDone_spec (es : List Entry) : AfterLastDone (afterDone es) es := by
  induction es with
  | nil => exact ⟨by simp [afterDone], by simp, .inl rfl⟩
  | cons e es ih =>
    obtain ⟨hle, hno, hlast⟩ := ih
    unfold afterDone
    split
    · next h0 =>
      rw [h0] at hno
      split
      · next hd => exact ⟨by simp, by simpa using hno, .inr ⟨e, rfl, hd⟩⟩
      · next hd => exact ⟨by simp, by simpa [hd] using hno, .inl rfl⟩
    · next k hk =>
      rw [hk] at hle hno hlast
      obtain ⟨x, hx, hd⟩ := hlast.resolve_left (by simp)
      exact ⟨by simp only [List.length_cons]; omega, by simpa using hno, .inr ⟨x, by simpa using hx, hd⟩⟩

end Sys2Proof.Machine
end

section
namespace Sys2Proof.Machine

/-! ### The completion -/

/-- What follows a completion's record at the other slots, the binding and the carry. -/
structure Completes (i : Fin 8) (t x : Part) : Prop where
  others : OtherSlotsKept t x i
  bound : x.table.bound = t.table.bound
  carry : x.length.carry = t.length.carry
  capture : t.diameter.mid.capture = none → x.diameter.mid.capture = none
  kept : x.isActive i = true → x.length.logPos = t.length.logPos ∧ x.length.history = t.length.history

protected theorem Completes.rfl (i : Fin 8) (t : Part) : Completes i t t :=
  ⟨.rfl t i, rfl, rfl, id, fun _ => ⟨rfl, rfl⟩⟩

theorem midTake_capture {m : MidWatch} (logPos : Option Int) (e : Option Entry) (h : m.capture = none) :
    (m.take logPos e).capture = none := by
  cases e with
  | none => exact h
  | some e =>
    unfold MidWatch.take
    dsimp only
    split
    · exact h
    · rfl

theorem handOver_capture (e : Option Entry) (fresh : Bool) {p : Part} (h : p.diameter.mid.capture = none) :
    (handOver e fresh p).diameter.mid.capture = none := by
  unfold handOver
  dsimp only
  split
  all_goals
    simp only [guidanceTest_diameter, (feedReact_feedOnly _ _).diameter]
    exact midTake_capture _ e h

theorem arm_capture (i : Fin 8) {p : Part} (h : p.diameter.mid.capture = none) : (arm i p).diameter.mid.capture = none := by
  unfold arm
  split
  · exact h
  · dsimp only
    rename_i r _
    generalize (p.armingTest r).2 = a
    cases a with
    | nothing => exact h
    | armed e => exact handOver_capture (some e) true (p := p.setRecord i _) h
    | filler e => exact handOver_capture (some e) true (p := raise .filler (p.setRecord i _)) h
    | empty => exact handOver_capture none false (p := raise .planEmpty (p.setRecord i _)) h

theorem Handed.completes {i : Fin 8} {t x : Part} (h : Handed t x) (others : OtherSlotsKept t x i)
    (bound : x.table.bound = t.table.bound) (capture : t.diameter.mid.capture = none → x.diameter.mid.capture = none) :
    Completes i t x :=
  ⟨others, bound, by rw [h.length], capture, fun _ => by rw [h.length]; exact ⟨rfl, rfl⟩⟩

theorem arm_completes (i : Fin 8) (t : Part) : Completes i t (arm i t) :=
  (arm_handed i t).completes (arm_others i t) (arm_bound i t) (arm_capture i)

theorem established_completes (i : Fin 8) (t : Part) : Completes i t (established i t) := by
  refine (established_handed i t).completes (established_others i t) ?_ fun h => arm_capture i ?_
  · exact (arm_bound i _).trans (by rw [feedReferenced_table])
  · rw [(feedReferenced_feedOnly t).diameter]
    exact h

theorem afterLog_completes (i : Fin 8) (r : Record) (actual : Int) (t : Part) : Completes i t (afterLog i r actual t) := by
  unfold afterLog
  split
  · have table := (finishTop_spec i r (max 0 (r.held.getD 0 - actual)) t).1
    obtain ⟨trec, tothers, -, tbound⟩ := written_table table
    refine ⟨tothers, tbound, ?_, fun _ => ?_, fun ha => ?_⟩
    · unfold finishTop
      rw [endPeriod_eq, (feedEnd_feedOnly _).carry]
      rfl
    · unfold finishTop
      rw [endPeriod_eq, (feedEnd_feedOnly _).diameter]
      rfl
    · rw [isActive_of_state trec (by simp [Record.finishTop, Record.finish])] at ha
      cases ha
  · exact arm_completes i t

/-- Binding, carry and position once a completion is over (03 R64). -/
theorem Completes.over {p q x : Part} {i : Fin 8} {r r' : Record} {n : Notice}
    (k : Completes i (recorded i (r.state == .active) r' n p) x) (o : Over x q) :
    q.table.bound = none ∧ OtherSlotsKept p q i
      ∧ (r.state = .active → ∀ c, p.length.carry = some c →
          q.length.carry = none ∧ q.diameter.mid.capture = none
            ∧ (q.isActive i = true → q.length.logPos = some c.pos ∧ q.length.history = some c.log)) := by
  refine ⟨by rw [o.table, k.bound]; rfl, (recorded_others.trans k.others).trans (.of_table i o.table), fun ha c hc => ?_⟩
  have ht : (recorded i (r.state == .active) r' n p).length =
      { p.length with logPos := some c.pos, history := some c.log, carry := none, mirror := true } := by
    simp [recorded, rebase, ha, hc]
  have hd : (recorded i (r.state == .active) r' n p).diameter.mid.capture = none := by
    simp [recorded, rebase, ha, hc]
  refine ⟨by rw [o.carry, k.carry, ht], by rw [o.mid, k.capture hd], fun hq => ?_⟩
  have hx : x.isActive i = true := by rwa [Part.isActive, Part.recordAt, o.table] at hq
  obtain ⟨h1, h2⟩ := k.kept hx
  rw [o.logPos, o.history, h1, h2, ht]
  exact ⟨rfl, rfl⟩

/-- The carry of a cut in a record that is not ACTIVE ends with it (03 R64). -/
theorem recorded_discards {p q : Part} {i : Fin 8} {r r' : Record} {n : Notice} (h : r.state ≠ .active)
    (o : Over (recorded i (r.state == .active) r' n p) q) :
    q.length.carry = none ∧ q.length.logPos = p.length.logPos := by
  rw [o.carry, o.logPos]
  have : (r.state == RecordState.active) = false := by simpa using h
  simp [recorded, rebase, this]

/-! ### `CutCompleted`, target by target -/

section Targets

variable {p q : Part} {b : BoundCut} {r : Record}

/-- The carry's clauses, whatever the target. -/
theorem carry_clauses {r' : Record} {n : Notice} {x : Part}
    (hk : r.state = .active → Completes b.slot (recorded b.slot (r.state == .active) r' n p) x)
    (hx : r.state ≠ .active → x = recorded b.slot (r.state == .active) r' n p) (o : Over x q) :
    q.table.bound = none ∧ OtherSlotsKept p q b.slot
      ∧ (r.state ≠ .active → q.length.carry = none ∧ q.length.logPos = p.length.logPos)
      ∧ (r.state = .active → ∀ c, p.length.carry = some c →
          q.length.carry = none ∧ q.diameter.mid.capture = none
            ∧ (q.isActive b.slot = true → q.length.logPos = some c.pos ∧ q.length.history = some c.log)) := by
  have k : Completes b.slot (recorded b.slot (r.state == .active) r' n p) x := by
    by_cases h : r.state = .active
    · exact hk h
    · rw [hx h]
      exact .rfl _ _
  obtain ⟨h1, h2, h3⟩ := k.over o
  exact ⟨h1, h2, fun h => recorded_discards h (hx h ▸ o), h3⟩

/-- A completion bound to a reference, seen once the event is over (01 R12, R13; 02 R47, R49). -/
theorem reference_completed {prof : Profile} {d : Option Nat} (hb : p.table.bound = some b) (hr : p.recordAt b.slot = some r)
    (ht : b.target = .reference prof d) (o : Over (cutComplete p) q) :
    (q.table.bound = none ∧ OtherSlotsKept p q b.slot
      ∧ (r.state ≠ .active → q.length.carry = none ∧ q.length.logPos = p.length.logPos)
      ∧ (r.state = .active → ∀ c, p.length.carry = some c →
          q.length.carry = none ∧ q.diameter.mid.capture = none
            ∧ (q.isActive b.slot = true → q.length.logPos = some c.pos ∧ q.length.history = some c.log)))
    ∧ (r.state = .active → ArmingMet b.slot (r.recordReference prof d) p q)
    ∧ (r.state ≠ .active → q.recordAt b.slot = some (r.recordReference prof d))
    ∧ CutDoneSent b (r.recordReference prof d) .reference none none none p q := by
  have w := (cutComplete_planWork p).busOff
  rw [cutComplete_reference hb hr ht] at o w
  set n := cutDoneNotice (p.stemId b.slot) b (r.recordReference prof d) .reference none with hn
  set t := recorded b.slot (r.state == .active) (r.recordReference prof d) n p with hdt
  dsimp only at o w
  refine ⟨carry_clauses (fun h => ?_) (fun h => if_neg h) o, fun h => ?_, fun h => ?_, fun hbo h16 => ?_⟩
  · rw [if_pos h]
    exact established_completes _ _
  · rw [if_pos h] at o
    exact ((established_met recorded_recordAt).seen (o.seen b.slot)).of_recorded
  · rw [if_neg h] at o
    exact (o.seen b.slot).record.trans recorded_recordAt
  · have hw : Works armRaises t (if r.state = .active then established b.slot t else t) := by
      split
      · exact established_works _ _
      · exact .rfl _ _
    obtain ⟨rest, hrest⟩ := cutDone_first hw o w hbo h16
    refine ⟨rest, ?_⟩
    rw [← hrest, hn]
    simp [cutDoneNotice, ht, CutTarget.results]

/-- A completion of a log cut, seen once the event is over (02 R43 to R45, R49). -/
theorem log_completed (hb : p.table.bound = some b) (hr : p.recordAt b.slot = some r)
    (ht : ∀ prof d, b.target ≠ .reference prof d) (o : Over (cutComplete p) q) {x : Results}
    (hx : b.target.results = some x) {r' : Record} {outcome : CutOutcome} {index : Option Nat}
    (hc : r.recordCut b.kind b.target = (r', outcome, index)) (hs : r'.state = r.state) :
    (q.table.bound = none ∧ OtherSlotsKept p q b.slot
      ∧ (r.state ≠ .active → q.length.carry = none ∧ q.length.logPos = p.length.logPos)
      ∧ (r.state = .active → ∀ c, p.length.carry = some c →
          q.length.carry = none ∧ q.diameter.mid.capture = none
            ∧ (q.isActive b.slot = true → q.length.logPos = some c.pos ∧ q.length.history = some c.log)))
    ∧ LogFollowed b.slot r' x.actual p q
    ∧ CutDoneSent b r' outcome index (some x.actual)
        (if outcome = .entry then some (x.atCompletion (r.state == .dropped)).flags else none) p q := by
  have w := (cutComplete_planWork p).busOff
  rw [cutComplete_log hb hr ht, hc, hx] at o w
  set n := cutDoneNotice (p.stemId b.slot) b r' outcome index with hn
  set t := recorded b.slot (r.state == .active) r' n p with hdt
  dsimp only [Option.map_some, Option.getD_some] at o w
  refine ⟨carry_clauses (fun h => ?_) (fun h => if_neg h) o, logFollowed (n := n) (active := r.state == .active) ?_,
    fun hbo h16 => ?_⟩
  · rw [if_pos h]
    exact afterLog_completes _ _ _ _
  · rw [hs]
    exact o
  · have hw : Works armRaises t (if r.state = .active then afterLog b.slot r' x.actual t else t) := by
      split
      · exact afterLog_works _ _ _ _
      · exact .rfl _ _
    obtain ⟨rest, hrest⟩ := cutDone_first hw o w hbo h16
    refine ⟨rest, ?_⟩
    rw [← hrest, hn]
    simp [cutDoneNotice, hx, hs]

end Targets

theorem recordCut_entry {r : Record} {kind : CutKind} {ident : Nat} {x : Results} {es : List Entry}
    (h : changeFirst ident .cutting (fun e => { e with state := .done, results := some (x.atCompletion (r.state == .dropped)) })
      r.entries = some es) :
    r.recordCut kind (.entry ident x) = ({ r.countLog x.actual with entries := es }, .entry, indexOf ident es) := by
  simp [Record.recordCut, h]

theorem recordCut_placed {r : Record} {x : Results} (kind : CutKind) (h : r.entries.length < 12) :
    r.recordCut kind (.placed x) = ({ r.countLog x.actual with
      entries := r.entries.insertIdx (afterDone r.entries)
        (placedEntry r.nextIdent kind (x.atCompletion (r.state == .dropped)))
      nextIdent := r.nextIdent + 1
      revision := r.revision + 1 }, .entry, some (afterDone r.entries)) := by
  simp [Record.recordCut, listLimit, h]

theorem recordCut_excess {r : Record} {x : Results} (kind : CutKind) (h : 12 ≤ r.entries.length) (he : r.excessCount < 255) :
    r.recordCut kind (.placed x) = (r.countExcess x.actual, .excess, none) := by
  simp [Record.recordCut, listLimit, Nat.not_lt.mpr h, he]

theorem recordCut_uncounted {r : Record} {x : Results} (kind : CutKind) (h : 12 ≤ r.entries.length)
    (he : 255 ≤ r.excessCount) : r.recordCut kind (.placed x) = (r, .excessUncounted, none) := by
  simp [Record.recordCut, listLimit, Nat.not_lt.mpr h, Nat.not_lt.mpr he]

/-- No target of a log cut is a reference, and each leaves the record's state. -/
theorem recordCut_state (r : Record) (kind : CutKind) (t : CutTarget) : (r.recordCut kind t).1.state = r.state := by
  cases t with
  | reference prof d => rfl
  | entry ident x =>
    unfold Record.recordCut
    dsimp only
    split <;> rfl
  | placed x =>
    unfold Record.recordCut
    dsimp only
    repeat' split
    all_goals rfl

/-- A cut completion, seen once the event is over. -/
theorem cutComplete_completed {p q : Part} (o : Over (cutComplete p) q) : CutCompleted p q := by
  rcases hb : p.table.bound with _ | b
  · rw [cutComplete_unbound hb] at o
    exact ⟨by rw [o.table, hb], fun _ => o.table, fun b r h => by rw [hb] at h; cases h⟩
  rcases hr : p.recordAt b.slot with _ | r
  · rw [cutComplete_free hb hr] at o
    refine ⟨by rw [o.table], fun h => (Option.some_ne_none b (hb.symm.trans h)).elim, fun b' r h h' => ?_⟩
    obtain rfl := Option.some.inj (hb.symm.trans h)
    rw [hr] at h'
    cases h'
  have fromRecord : (q.table.bound = none ∧ OtherSlotsKept p q b.slot
      ∧ (r.state ≠ .active → q.length.carry = none ∧ q.length.logPos = p.length.logPos)
      ∧ (r.state = .active → ∀ c, p.length.carry = some c →
          q.length.carry = none ∧ q.diameter.mid.capture = none
            ∧ (q.isActive b.slot = true → q.length.logPos = some c.pos ∧ q.length.history = some c.log))) := by
    rcases ht : b.target with ⟨prof, d⟩ | ⟨ident, x⟩ | x
    · exact (reference_completed hb hr ht o).1
    · exact (log_completed hb hr (by simp [ht]) o (x := x) (by simp [ht, CutTarget.results]) rfl (recordCut_state _ _ _)).1
    · exact (log_completed hb hr (by simp [ht]) o (x := x) (by simp [ht, CutTarget.results]) rfl (recordCut_state _ _ _)).1
  obtain ⟨hbound, hothers, hleft, hkept⟩ := fromRecord
  refine ⟨hbound, fun h => (Option.some_ne_none b (hb.symm.trans h)).elim, fun b' r₁ h h' => ?_⟩
  obtain rfl := Option.some.inj (hb.symm.trans h)
  obtain rfl := Option.some.inj (hr.symm.trans h')
  refine ⟨hothers, fun prof d ht => ?_, fun ident x ht => ?_, fun x ht hl => ?_, fun x ht hl he => ?_, fun x ht hl he => ?_,
    hleft, hkept⟩
  · have e : r.recordReference prof d = { r with
        reference := if r.state = .active then .cut else r.reference
        felled := r.felled || prof == .fellProcess
        stump := if prof = .fellProcess ∧ r.felled = false then some (d.getD 0) else r.stump } := by
      rcases hf : r.felled <;> cases prof <;> simp [Record.recordReference, hf]
    obtain ⟨-, h1, h2, h3⟩ := reference_completed hb hr ht o
    rw [e] at h1 h2 h3
    exact ⟨h1, h2, h3⟩
  · intro x' es hes
    have cut := recordCut_entry (kind := b.kind) hes
    rw [← ht] at cut
    exact (log_completed hb hr (by simp [ht]) o (x := x) (by simp [ht, CutTarget.results]) cut rfl).2
  · have k := (log_completed hb hr (by simp [ht]) o (x := x) (by simp [ht, CutTarget.results])
      ((congrArg _ ht).trans (recordCut_placed b.kind hl)) rfl).2
    exact ⟨afterDone_spec _, k.1, k.2⟩
  · exact (log_completed hb hr (by simp [ht]) o (x := x) (by simp [ht, CutTarget.results])
      ((congrArg _ ht).trans (recordCut_excess b.kind hl he)) rfl).2
  · exact (log_completed hb hr (by simp [ht]) o (x := x) (by simp [ht, CutTarget.results])
      ((congrArg _ ht).trans (recordCut_uncounted b.kind hl he)) rfl).2

end Sys2Proof.Machine
end

section
namespace Sys2Proof.Machine

/-! ### A feed whose cut the saw has taken -/

theorem Feed.cutTaken_iff (f : Feed) : f.cutTaken = true ↔ f.state = .cutWait ∧ ∃ k, f.request = .taken k := by
  unfold Feed.cutTaken
  constructor
  · intro h
    split at h
    · rename_i k hs hr
      exact ⟨hs, k, hr⟩
    · cases h
  · rintro ⟨hs, k, hr⟩
    rw [hs, hr]

theorem feedReact_cutWait (armed : Bool) {p : Part} (h : p.feed.state = .cutWait) : feedReact armed p = p := by
  unfold feedReact
  rw [h]

/-- A hand-over leaves a feed in CUT_WAIT there, with its request. -/
theorem handOver_cutTaken (e : Option Entry) (fresh : Bool) {p : Part} (h : p.feed.cutTaken = true) :
    (handOver e fresh p).feed.cutTaken = true := by
  obtain ⟨hs, k, hr⟩ := p.feed.cutTaken_iff.mp h
  unfold handOver
  dsimp only
  rw [feedReact_cutWait (p := { p with
    diameter := p.diameter.take p.length.logPos e, feed := p.feed.take e fresh
    monitor := { p.monitor with guidance := p.monitor.guidance.take e } }) _ hs]
  split
  · rw [guidanceTest_feed]
    exact (Feed.cutTaken_iff _).mpr ⟨hs, k, hr⟩
  · exact (Feed.cutTaken_iff _).mpr ⟨hs, k, hr⟩

theorem arm_cutTaken (i : Fin 8) {p : Part} (h : p.feed.cutTaken = true) : (arm i p).feed.cutTaken = true := by
  unfold arm
  split
  · exact h
  · dsimp only
    unfold armingHands
    split
    · exact h
    · exact handOver_cutTaken _ _ h
    · exact handOver_cutTaken _ _ h
    · exact handOver_cutTaken _ _ h

theorem feedReferenced_cutTaken {p : Part} (h : p.feed.cutTaken = true) : (feedReferenced p).feed.cutTaken = true := by
  obtain ⟨hs, k, hr⟩ := p.feed.cutTaken_iff.mp h
  unfold feedReferenced
  dsimp only
  split
  next h' => rw [hs] at h'; cases h'
  next h' => rw [hs] at h'; cases h'
  next => exact (Feed.cutTaken_iff _).mpr ⟨hs, k, hr⟩

theorem OtherSlotsKept.isActive {p q : Part} {i j : Fin 8} (h : OtherSlotsKept p q i) (hj : j ≠ i) :
    q.isActive j = p.isActive j := isActive_congr (congrArg Slot.record (h j hj))

/-- What follows a log leaves such a feed there, or ends the period of the record. -/
theorem afterLog_cutTaken (i : Fin 8) (r : Record) (actual : Int) {t : Part} (h : t.feed.cutTaken = true) :
    (afterLog i r actual t).feed.cutTaken = true ∨ (afterLog i r actual t).isActive i = false := by
  unfold afterLog
  split
  · obtain ⟨trec, -⟩ := written_table (finishTop_spec i r (max 0 (r.held.getD 0 - actual)) t).1
    exact .inr (isActive_of_state trec (by simp [Record.finishTop, Record.finish]))
  · exact .inl (arm_cutTaken i h)

/-- A completion leaves a feed whose cut was taken there, unless it finishes the ACTIVE record. -/
theorem cutComplete_cutTaken {p : Part} (one : OneActive p) (h : p.feed.cutTaken = true) {i : Fin 8}
    (hi : (cutComplete p).activeSlot = some i) : (cutComplete p).feed.cutTaken = true := by
  rcases hb : p.table.bound with _ | b
  · rwa [cutComplete_unbound hb]
  rcases hr : p.recordAt b.slot with _ | r
  · rwa [cutComplete_free hb hr]
  have kept : ∀ (a : Bool) (r' : Record) (n : Notice), (recorded b.slot a r' n p).feed.cutTaken = true := fun a r' n => by
    change (rebase a p).feed.cutTaken = true
    rwa [rebase_feed]
  by_cases ht : ∃ prof d, b.target = .reference prof d
  · obtain ⟨prof, d, ht⟩ := ht
    rw [cutComplete_reference hb hr ht]
    dsimp only
    split
    · exact arm_cutTaken _ (feedReferenced_cutTaken (kept _ _ _))
    · exact kept _ _ _
  · rw [cutComplete_log hb hr fun prof d h => ht ⟨prof, d, h⟩] at hi ⊢
    dsimp only at hi ⊢
    split
    next hact =>
      rw [if_pos hact] at hi
      refine (afterLog_cutTaken b.slot _ _ (kept _ _ _)).resolve_right fun off => ?_
      have on := activeSlot_isActive hi
      have other : i ≠ b.slot := by
        rintro rfl
        rw [off] at on
        cases on
      rw [(afterLog_completes b.slot _ _ _).others.isActive other, recorded_others.isActive other] at on
      exact other (one i b.slot on ((isActive_iff _ _).mpr ⟨r, hr, hact⟩))
    next => exact kept _ _ _

/-! ### Deciding with the bar out -/

/-- With the saw not PARKED the decision turns on the ACTIVE record, profile, takeover, control value and stall-out alone. -/
theorem decision_congr_sawOut {p q : Part} (hp : p.saw.state ≠ .parked) (hw : q.saw = p.saw) (ht : q.table = p.table)
    (hm : q.monitor.profile = p.monitor.profile) (hk : q.monitor.takeover = p.monitor.takeover)
    (hv : q.feed.value = p.feed.value) (hs : q.feed.stallOut = p.feed.stallOut) : q.decision = p.decision := by
  have hrec : q.recordAt = p.recordAt := by funext i; unfold Part.recordAt; rw [ht]
  have hact : q.isActive = p.isActive := by funext i; unfold Part.isActive; rw [hrec]
  have hslot : q.activeSlot = p.activeSlot := by unfold Part.activeSlot; rw [hact]
  have hactive : q.activeRecord = p.activeRecord := by unfold Part.activeRecord; rw [hslot, hrec]
  have out : ∀ r, q.decideRun r = p.decideRun r := fun r => by
    unfold Part.decideRun
    rw [hs, hw, if_pos hp, if_pos hp]
  unfold Part.decision
  simp only [hactive, hm, hk, hv, out]

theorem decision_sawOut {p : Part} (hp : p.saw.state ≠ .parked) :
    p.decision = .idle ∨ p.decision = .manual ∨ p.decision = .grip ∨ (p.decision = .stalled ∧ p.feed.stallOut = true) := by
  unfold Part.decision
  split
  · simp
  split
  · simp
  split
  · simp
  split
  · simp
  · simp
  · unfold Part.decideRun
    split
    next h => simp [h]
    · simp

/-- What a feed that decides afresh with the bar out, as its cut is over, comes to. -/
theorem feedCutOver_decides {p : Part} (h : p.feed.cutTaken = true) (hp : p.saw.state ≠ .parked) :
    (feedCutOver p).feed.state = (feedCutOver p).decision ∧ (feedCutOver p).feed.request = .none
      ∧ (feedCutOver p).holdPasses = false := by
  have hs := (p.feed.cutTaken_iff.mp h).1
  let q : Part := { p with feed := Feed.withdraw { p.feed with request := .none } }
  have eq : feedCutOver p = enterFeed q.decision q := by
    unfold feedCutOver
    rw [if_pos h]
    rfl
  have out := decision_sawOut (p := q) hp
  have entry : q.decision ≠ q.feed.state := by
    rw [show q.feed.state = .cutWait from hs]
    rcases out with e | e | e | ⟨e, -⟩ <;> simp [e]
  have feed : (feedCutOver p).feed = q.feed.enter q.decision q.length.head := by
    rw [eq]
    unfold enterFeed
    rw [if_neg entry]
    dsimp only
    split <;> rfl
  have only : FeedOnly q (feedCutOver p) := by
    rw [eq]
    exact enterFeed_feedOnly _ q
  have same : (feedCutOver p).decision = q.decision := by
    refine decision_congr_sawOut hp only.saw only.table (by rw [only]) (by rw [only]) (by rw [feed]; rfl) ?_
    rw [feed]
    rcases out with e | e | e | ⟨e, so⟩
    · simp [Feed.enter, e]
    · simp [Feed.enter, e]
    · simp [Feed.enter, e]
    · simp [Feed.enter, so]
  refine ⟨by rw [same, feed]; rfl, by rw [feed]; exact if_pos hs, ?_⟩
  have still : (feedCutOver p).feed.state = q.decision := by rw [feed]; rfl
  unfold Part.holdPasses
  rw [still]
  split
  · rcases out with e | e | e | ⟨e, -⟩ <;> simp [e]
  · rfl

end Sys2Proof.Machine
end

section
namespace Sys2Proof.Machine

/-! ### The end of stroke -/

theorem Follows.saw {p q : Part} (h : Follows p q) : q.saw = p.saw := by rw [h]

/-- The saw's demand at the end of an event is its present state's. -/
theorem conclude_sawDemand (b : Part) {p : Part} (h : p.boot.resetPending = none ∨ p.link.busOff = false) :
    (conclude b p).link.image.saw = p.saw.demand := by
  rw [conclude_eq, resetInBusOff_idle h, concludeRest_eq]
  change (holdTest p).saw.demand = _
  rw [(holdTest_feedOnly p).saw]

/-- With the bar out, a feed that has its decision and no hold to take has it once the event is only. -/
theorem conclude_decided (b : Part) {p : Part} (h : p.boot.resetPending = none ∨ p.link.busOff = false)
    (hp : p.saw.state ≠ .parked) (hh : p.holdPasses = false) :
    (conclude b p).feed = p.feed ∧ (conclude b p).decision = p.decision := by
  have fol := conclude_follows b h
  have feed : (conclude b p).feed = p.feed := by
    rw [conclude_eq, resetInBusOff_idle h, holdTest_idle hh, concludeRest_eq]
  exact ⟨feed, decision_congr_sawOut hp (by rw [fol]) fol.table (by rw [fol]) (by rw [fol]) (by rw [feed]) (by rw [feed])⟩

/-- The part with the end-of-stroke switch closed. -/
def Part.atStroke (p : Part) : Part := { p with pins := { p.pins with endOfStroke := true } }

/-- The part as the end of stroke finds it, with the saw that the switch leaves. -/
def Part.strokeWith (w : Saw) (p : Part) : Part := { p.atStroke with saw := w }

theorem Quiet.atStroke {p : Part} (h : Quiet p) : Quiet p.atStroke :=
  ⟨h.pending, h.holds, h.drop, h.slip, h.ready, h.knife, h.image, h.refresh, h.list⟩

theorem strokeWith_completed {w : Saw} {p q : Part} (h : CutCompleted (p.strokeWith w) q) : CutCompleted p q := h

theorem endOfStroke_runs {s : State} (hon : s.part.powered = true) : Runs .endOfStroke s (conclude s.part (strokeEnds s.part)) :=
  runs_on rfl (sense_on hon)

theorem strokeEnds_level {p : Part} (ha : p.saw.state ≠ .advancing)
    (hm : p.saw.state = .manual → ∃ c, p.saw.cycle = some c ∧ c.completionSeen = true) : strokeEnds p = p.atStroke := by
  unfold strokeEnds
  dsimp only
  split
  next h => exact absurd h ha
  next h =>
    obtain ⟨c, hc, hs⟩ := hm h
    rw [hc]
    simp [hs, Part.atStroke]
  all_goals rfl

theorem strokeEnds_advancing {p : Part} (h : p.saw.state = .advancing) (ho : p.pins.homeClosed = false) :
    strokeEnds p = feedCutOver (cutComplete (p.strokeWith (p.saw.return_ .completed))) := by
  unfold strokeEnds
  dsimp only
  rw [h]
  exact if_neg (by simp [ho])

theorem strokeEnds_manual {p : Part} {c : Cycle} (h : p.saw.state = .manual) (hc : p.saw.cycle = some c)
    (hs : c.completionSeen = false) : strokeEnds p =
      cutComplete (p.strokeWith { p.saw with cycle := some { c with completionSeen := true, fromFault := false } }) := by
  unfold strokeEnds manualCompletes
  simp only [h, hc, hs]
  rfl

theorem stroke_raises {p x : Part} {w : Saw} (h : Works armRaises (p.strokeWith w) x)
    (pend : x.boot.resetPending = none ∨ x.link.busOff = false) :
    RaisesOnly [.filler, .planEmpty, .stall, .diamReject] p (conclude p x) := by
  have raised : RaisesOnly armRaises p x := h.raises
  exact (raised.mono (by simp [armRaises])).trans ((conclude_raises p pend).mono (by simp [endRaises, feedRaises]))

/-- Settles O50: by the saw's state; the completion is `cutComplete_completed` seen over what follows it. -/
theorem endOfStrokeCompletesTheCut : Obligations.EndOfStrokeCompletesTheCut := by
  intro s hs one hon
  have hq := hs.quiet hon
  have run := endOfStroke_runs hon
  have still : strokeEnds s.part = s.part.atStroke → Runs .endOfStroke s s.part.atStroke := fun h => by
    rw [h, hq.atStroke.conclude_self s.part rfl rfl] at run
    exact run
  have work : ∀ w, PlanWork (s.part.strokeWith w) (cutComplete (s.part.strokeWith w)) := fun w => cutComplete_planWork _
  have pend : ∀ w, (cutComplete (s.part.strokeWith w)).boot.resetPending = none
      ∨ (cutComplete (s.part.strokeWith w)).link.busOff = false := fun w => by
    rw [(work w).boot, (work w).busOff]
    exact hq.pending
  refine ⟨fun ha hm => still (strokeEnds_level ha fun h => absurd h hm),
    fun c hm hc hseen => still (strokeEnds_level (by simp [hm]) fun _ => ⟨c, hc, hseen⟩), fun c ha hc ho => ?_,
    fun c hm hc hseen => ?_⟩
  · have eq := strokeEnds_advancing ha ho
    rw [eq] at run
    set w := s.part.saw.return_ .completed with hw
    set x := cutComplete (s.part.strokeWith w) with hx
    have only := feedCutOver_feedOnly x
    have pend' : (feedCutOver x).boot.resetPending = none ∨ (feedCutOver x).link.busOff = false := by
      rw [only.boot, only.busOff]
      exact pend w
    have saw : (feedCutOver x).saw = w := only.saw.trans (work w).saw
    have out : x.saw.state ≠ .parked := by
      rw [(work w).saw]
      simp [Part.strokeWith, hw, Saw.return_]
    refine ⟨_, run, strokeWith_completed (cutComplete_completed (.of_feedCutOver (.of_conclude s.part pend'))), ?_, ?_,
      fun hcut ⟨i, hi⟩ => ?_, ?_, ?_⟩
    · rw [(conclude_follows s.part pend').saw, saw, hw]
      simp [Saw.return_, hc]
    · rw [conclude_sawDemand s.part pend', saw, hw]
      simp [Saw.return_, Saw.demand, hc]
    · have active : x.activeSlot = some i := by
        rw [← hi]
        refine activeSlot_congr fun j => isActive_congr ?_
        unfold Part.recordAt
        rw [(conclude_follows s.part pend').table, feedCutOver_table]
      have taken : x.feed.cutTaken = true := cutComplete_cutTaken (p := s.part.strokeWith w) one hcut active
      obtain ⟨hstate, hrequest, hhold⟩ := feedCutOver_decides taken out
      obtain ⟨feed, decision⟩ := conclude_decided s.part pend' (by rw [only.saw]; exact out) hhold
      rw [feed, decision]
      exact ⟨hstate, hrequest⟩
    · exact (eq ▸ strokeEnds_headWork s.part).concluded s.part pend'
    · exact stroke_raises ((cutComplete_works _).trans ((feedCutOver_works x).mono feedRaises_sub_armRaises)) pend'
  · have eq := strokeEnds_manual hm hc hseen
    rw [eq] at run
    refine ⟨_, run, strokeWith_completed (cutComplete_completed (.of_conclude s.part (pend _))), ?_, ?_, ?_⟩
    · rw [(conclude_follows s.part (pend _)).saw, (work _).saw]
      rfl
    · exact (eq ▸ strokeEnds_headWork s.part).concluded s.part (pend _)
    · exact stroke_raises (cutComplete_works _) (pend _)

end Sys2Proof.Machine
end

section
namespace Sys2Proof.Machine

/-! ### What the feed looks at -/

/-- `q` shows the feed, and the watch over the minimum diameter, what `p` shows them. -/
structure SameFed (p q : Part) : Prop where
  table : q.table = p.table
  store : q.store = p.store
  saw : q.saw = p.saw
  feed : q.feed = p.feed
  profile : q.monitor.profile = p.monitor.profile
  takeover : q.monitor.takeover = p.monitor.takeover
  head : q.length.head = p.length.head
  logPos : q.length.logPos = p.length.logPos
  creep : q.length.creep = p.length.creep
  samples : q.diameter.samples = p.diameter.samples
  entry : q.diameter.entry = p.diameter.entry
  hold : q.diameter.hold = p.diameter.hold

protected theorem SameFed.rfl (p : Part) : SameFed p p := ⟨rfl, rfl, rfl, rfl, rfl, rfl, rfl, rfl, rfl, rfl, rfl, rfl⟩

theorem SameFed.trans {p q t : Part} (h : SameFed p q) (k : SameFed q t) : SameFed p t :=
  ⟨k.table.trans h.table, k.store.trans h.store, k.saw.trans h.saw, k.feed.trans h.feed, k.profile.trans h.profile,
    k.takeover.trans h.takeover, k.head.trans h.head, k.logPos.trans h.logPos, k.creep.trans h.creep,
    k.samples.trans h.samples, k.entry.trans h.entry, k.hold.trans h.hold⟩

/-- The part `q` is `p` in all that the feed looks at. -/
theorem SameFed.eqn {p q : Part} (h : SameFed p q) : q = { q with
    table := p.table, store := p.store, saw := p.saw, feed := p.feed
    monitor := { q.monitor with profile := p.monitor.profile, takeover := p.monitor.takeover }
    length := { q.length with head := p.length.head, logPos := p.length.logPos, creep := p.length.creep }
    diameter := { q.diameter with
      samples := p.diameter.samples, entry := p.diameter.entry, hold := p.diameter.hold } } := by
  rw [← h.table, ← h.store, ← h.saw, ← h.feed, ← h.profile, ← h.takeover, ← h.head, ← h.logPos, ← h.creep, ← h.samples,
    ← h.entry, ← h.hold]

theorem SameFed.decision {p q : Part} (h : SameFed p q) : q.decision = p.decision := by
  rw [h.eqn]
  rfl

theorem SameFed.thin {p q : Part} (h : SameFed p q) : q.thin = p.thin := by
  rw [h.eqn]
  rfl

theorem SameFed.holdPasses {p q : Part} (h : SameFed p q) : q.holdPasses = p.holdPasses := by
  rw [h.eqn]
  rfl

theorem SameFed.creepOnEntry {p q : Part} (h : SameFed p q) (st : FeedState) : q.creepOnEntry st = p.creepOnEntry st := by
  rw [h.eqn]
  rfl

/-- Operations of the feed that leave the same feed and creep interval leave the same to be looked at. -/
theorem SameFed.of_feedOnly {p q p' q' : Part} (h : SameFed p q) (hp : FeedOnly p p') (hq : FeedOnly q q')
    (feed : q'.feed = p'.feed) (creep : q'.length.creep = p'.length.creep) : SameFed p' q' where
  table := by rw [hq.table, hp.table, h.table]
  store := by rw [hq.store, hp.store, h.store]
  saw := by rw [hq.saw, hp.saw, h.saw]
  feed := feed
  profile := by rw [hq.monitor, hp.monitor, h.profile]
  takeover := by rw [hq.monitor, hp.monitor, h.takeover]
  head := by rw [hq.head, hp.head, h.head]
  logPos := by rw [hq.logPos, hp.logPos, h.logPos]
  creep := creep
  samples := by rw [hq.diameter, hp.diameter, h.samples]
  entry := by rw [hq.diameter, hp.diameter, h.entry]
  hold := by rw [hq.diameter, hp.diameter, h.hold]

theorem enterFeed_feed (st : FeedState) (p : Part) :
    (enterFeed st p).feed = if st = p.feed.state then p.feed else p.feed.enter st p.length.head := by
  unfold enterFeed
  split
  · rfl
  · dsimp only
    split <;> rfl

theorem enterFeed_creep (st : FeedState) (p : Part) :
    (enterFeed st p).length.creep = if st = p.feed.state then p.length.creep else p.creepOnEntry st := by
  unfold enterFeed
  split
  · rfl
  · dsimp only
    split <;> rfl

theorem SameFed.enterFeed {p q : Part} (h : SameFed p q) (st : FeedState) : SameFed (enterFeed st p) (enterFeed st q) :=
  h.of_feedOnly (enterFeed_feedOnly st p) (enterFeed_feedOnly st q)
    (by rw [enterFeed_feed, enterFeed_feed, h.feed, h.head])
    (by rw [enterFeed_creep, enterFeed_creep, h.feed, h.creep, h.creepOnEntry])

theorem SameFed.feedDecide {p q : Part} (h : SameFed p q) : SameFed (feedDecide p) (feedDecide q) := by
  have w : SameFed { p with feed := p.feed.withdraw } { q with feed := q.feed.withdraw } :=
    h.of_feedOnly (.of_feed p _) (.of_feed q _) (by rw [h.feed]) h.creep
  have e := w.enterFeed p.decision
  rw [← h.decision] at e
  unfold Machine.feedDecide
  dsimp only
  rwa [decision_withdraw, decision_withdraw, h.decision] at *

theorem SameFed.feedHold {p q : Part} (h : SameFed p q) : SameFed (feedHold p) (feedHold q) := by
  unfold Machine.feedHold
  rw [h.feed]
  split
  all_goals first
    | exact h.feedDecide
    | exact h

theorem SameFed.holdComes {p q : Part} (h : SameFed p q) : SameFed (holdComes p) (holdComes q) :=
  SameFed.feedHold ⟨h.table, h.store, h.saw, h.feed, h.profile, h.takeover, h.head, h.logPos, h.creep, h.samples, h.entry, rfl⟩

theorem SameFed.holdTest {p q : Part} (h : SameFed p q) : SameFed (holdTest p) (holdTest q) := by
  unfold Machine.holdTest
  rw [h.holdPasses]
  split
  · exact h.holdComes
  · exact h

theorem concludeRest_sameFed (b p : Part) : SameFed p (concludeRest b p) := by
  rw [concludeRest_eq]
  exact ⟨rfl, rfl, rfl, rfl, rfl, rfl, rfl, rfl, rfl, rfl, rfl, rfl⟩

/-- Past an event's end the feed is as the hold test leaves it. -/
theorem conclude_sameFed (b : Part) {p : Part} (h : p.boot.resetPending = none ∨ p.link.busOff = false) :
    SameFed (holdTest p) (conclude b p) := by
  rw [conclude_eq, resetInBusOff_idle h]
  exact concludeRest_sameFed b _

/-! ### A decision taken stays -/

theorem decision_stalled {p : Part} (h : p.decision = .stalled) : p.feed.stallOut = true := by
  by_contra k
  have k : p.feed.stallOut = false := by simpa using k
  have place : p.placement ≠ .stalled := by
    unfold Part.placement
    repeat' split
    all_goals simp
  have run : ∀ r, p.decideRun r ≠ .stalled := fun r => by
    unfold Part.decideRun
    rw [if_neg (by simp [k])]
    repeat' split
    all_goals first
      | exact place
      | simp
  unfold Part.decision at h
  repeat' split at h
  all_goals first
    | exact run _ h
    | cases h

/-- The feed's own work changes the decision only by the control value, the held entry and the marks of seek and stall. -/
theorem decision_of_marks {p q : Part} (only : FeedOnly p q) (value : q.feed.value = p.feed.value)
    (held : q.feed.held = p.feed.held) (seek : q.feed.seekSpent = p.feed.seekSpent)
    (stall : q.feed.stallOut = p.feed.stallOut) : q.decision = p.decision := by
  have h : q.decision = Part.decision { p with feed := { p.feed with
      value := q.feed.value, held := q.feed.held, seekSpent := q.feed.seekSpent, stallOut := q.feed.stallOut } } := by
    rw [only]
    rfl
  rw [h, value, held, seek, stall]

theorem feedDecide_marks (p : Part) : (feedDecide p).feed.stallOut = p.feed.stallOut := by
  by_cases h : p.decision = .stalled
  · have k := decision_stalled h
    unfold feedDecide
    rw [enterFeed_feed]
    split
    · exact Eq.refl p.feed.stallOut
    · simp [Feed.enter, Feed.withdraw, k]
  · exact feedDecide_stallOut h

/-- Deciding afresh changes nothing that the decision turns on. -/
theorem feedDecide_decision (p : Part) : (feedDecide p).decision = p.decision :=
  decision_of_marks (feedDecide_feedOnly p) (feedDecide_value p) (feedDecide_held p) (feedDecide_seekSpent p) (feedDecide_marks p)

theorem holdComes_decides {p : Part} (h : p.feed.state = .feed ∨ p.feed.state = .approach ∨ ∃ ph, p.feed.state = .recover ph) :
    (holdComes p).feed.state = (holdComes p).decision := by
  have e : holdComes p = feedDecide (raise .diamReject { p with diameter := { p.diameter with hold := true } }) :=
    feedHold_working (p := raise .diamReject { p with diameter := { p.diameter with hold := true } }) h
  rw [e, feedDecide_state, feedDecide_decision]

/-- With a hold in force no decision lets the feed move. -/
theorem decision_held {p : Part} (h : p.diameter.hold = true) : p.decision.motion = false ∧ p.decision ≠ .settle := by
  have run : ∀ r, (p.decideRun r).motion = false ∧ p.decideRun r ≠ .settle := fun r => by
    unfold Part.decideRun
    simp only [h, if_true]
    repeat' split
    all_goals simp [FeedState.motion, FeedState.heading]
  unfold Part.decision
  repeat' split
  all_goals first
    | exact run _
    | simp [FeedState.motion, FeedState.heading]

end Sys2Proof.Machine
end

section
namespace Sys2Proof.Machine

/-! ### A count at the feed only leads onward -/

/-- How far a feed state is on the way that a count leads: from SEEK and the recoveries over FEED and APPROACH to the states in which
the stem stands. -/
def FeedState.rank : FeedState → Nat
  | .seek => 0
  | .recover .back => 1
  | .recover .forward => 2
  | .feed => 3
  | .correct _ => 3
  | .approach => 4
  | .idle => 5
  | .grip => 5
  | .settle => 5
  | .cutWait => 5
  | .stalled => 5
  | .manual => 5

theorem rank_of_still {st : FeedState} (h : st.motion = false) : st.rank = 5 := by
  cases st with
  | recover ph => cases ph <;> simp [FeedState.motion, FeedState.heading] at h
  | correct hd => simp [FeedState.motion, FeedState.heading] at h
  | seek | feed | approach => simp [FeedState.motion, FeedState.heading] at h
  | idle | grip | settle | cutWait | stalled | manual => rfl

/-- From `p` to `q` the feed has kept value, held entry and correction count, and stays in its state, creep interval and stall watch
untouched, or is further on its way. -/
structure Onward (p q : Part) : Prop where
  value : q.feed.value = p.feed.value
  held : q.feed.held = p.feed.held
  corrections : q.feed.corrections = p.feed.corrections
  goes : (q.feed.state = p.feed.state ∧ q.length.creep = p.length.creep ∧ q.feed.watch = p.feed.watch)
    ∨ p.feed.state.rank < q.feed.state.rank

theorem Onward.of_same {p q : Part} (feed : q.feed = p.feed) (creep : q.length.creep = p.length.creep) : Onward p q :=
  ⟨by rw [feed], by rw [feed], by rw [feed], .inl ⟨by rw [feed], creep, by rw [feed]⟩⟩

protected theorem Onward.rfl (p : Part) : Onward p p := .of_same rfl rfl

theorem Onward.trans {p q t : Part} (h : Onward p q) (k : Onward q t) : Onward p t := by
  refine ⟨k.value.trans h.value, k.held.trans h.held, k.corrections.trans h.corrections, ?_⟩
  rcases h.goes with ⟨hs, hc, hw⟩ | h1
  · rcases k.goes with ⟨ks, kc, kw⟩ | k1
    · exact .inl ⟨ks.trans hs, kc.trans hc, kw.trans hw⟩
    · exact .inr (hs ▸ k1)
  · rcases k.goes with ⟨ks, -, -⟩ | k1
    · exact .inr (ks ▸ h1)
    · exact .inr (h1.trans k1)

/-- The same as `trans`, with the later work named first. -/
theorem Onward.since {p q t : Part} (k : Onward q t) (h : Onward p q) : Onward p t := h.trans k

theorem enterFeed_onward {st : FeedState} {p : Part} (h : st = p.feed.state ∨ p.feed.state.rank < st.rank) :
    Onward p (enterFeed st p) := by
  refine ⟨by simp, by simp, by simp, ?_⟩
  rcases h with h | h
  · refine .inl ⟨by simp [h], ?_, ?_⟩
    · rw [enterFeed_creep, if_pos h]
    · rw [enterFeed_feed, if_pos h]
  · exact .inr (by simpa using h)

theorem feedDecide_onward {p : Part} (h : p.decision = p.feed.state ∨ p.feed.state.rank < p.decision.rank) :
    Onward p (feedDecide p) := by
  have w : Onward p { p with feed := p.feed.withdraw } := ⟨rfl, rfl, rfl, .inl ⟨rfl, rfl, rfl⟩⟩
  refine (enterFeed_onward (p := { p with feed := p.feed.withdraw }) ?_).since w
  rw [decision_withdraw]
  exact h

theorem placement_cases (p : Part) :
    p.placement = .settle ∨ p.placement = .approach ∨ p.placement = .feed ∨ p.placement = .grip := by
  unfold Part.placement
  repeat' split
  all_goals simp

theorem decision_ne_seek {p : Part} (h : p.feed.seekSpent = true) : p.decision ≠ .seek := by
  have place : p.placement ≠ .seek := by
    rcases placement_cases p with e | e | e | e <;> simp [e]
  have run : ∀ r, p.decideRun r ≠ .seek := fun r => by
    unfold Part.decideRun
    simp only [h, if_true]
    repeat' split
    all_goals first
      | exact place
      | simp
  unfold Part.decision
  repeat' split
  all_goals first
    | exact run _
    | simp

theorem rank_pos {st : FeedState} (h : st ≠ .seek) : 0 < st.rank := by
  cases st with
  | seek => exact absurd rfl h
  | recover ph => cases ph <;> simp [FeedState.rank]
  | idle | grip | feed | approach | settle | correct _ | cutWait | stalled | manual => simp [FeedState.rank]

theorem seekEnds_onward {p : Part} (h : p.feed.state = .seek) : Onward p (seekEnds p) := by
  have spent : Onward p { p with feed := { p.feed with seekSpent := true } } := ⟨rfl, rfl, rfl, .inl ⟨rfl, rfl, rfl⟩⟩
  have decided := feedDecide_onward (p := { p with feed := { p.feed with seekSpent := true } })
    (.inr (by rw [h]; exact rank_pos (decision_ne_seek rfl)))
  have raised : Onward (feedDecide { p with feed := { p.feed with seekSpent := true } }) (seekEnds p) := .of_same rfl rfl
  exact raised.since (decided.since spent)

theorem recoveryCheck_onward (p : Part) : Onward p (recoveryCheck p) := by
  unfold recoveryCheck
  split
  next h =>
    refine enterFeed_onward (.inr ?_)
    rw [h.1]
    rcases placement_cases p with e | e | e | e <;> simp [e, FeedState.rank]
  next => exact .rfl p

theorem recoverForward_onward {p : Part} (h : p.feed.state = .recover .back) : Onward p (recoverForward p) :=
  (recoveryCheck_onward _).since (enterFeed_onward (.inr (by simp [h, FeedState.rank])))

theorem targetCompare_onward (before : Option Int) {p : Part} (h : p.feed.state = .feed ∨ p.feed.state = .approach) :
    Onward p (targetCompare before p) := by
  unfold targetCompare
  split
  · split
    · exact .rfl p
    · split
      · exact enterFeed_onward (.inr (by rcases h with h | h <;> simp [h, FeedState.rank]))
      · split
        next k => exact enterFeed_onward (.inr (by simp [k.1, FeedState.rank]))
        next => exact .rfl p
  · exact .rfl p

theorem feedCompare_onward (before : Option Int) (p : Part) : Onward p (feedCompare before p) := by
  unfold feedCompare
  split
  next h => exact targetCompare_onward before (.inl h)
  next h => exact targetCompare_onward before (.inr h)
  next h =>
    have settles : ∀ there : Bool, Onward p (if there then enterFeed .settle p else p) := fun there => by
      split
      · exact enterFeed_onward (.inr (by simp [h, FeedState.rank]))
      · exact .rfl p
    split
    · exact settles _
    · exact .rfl p
  next h =>
    split
    · split
      · exact seekEnds_onward h
      · exact .rfl p
    · exact .rfl p
  next h =>
    split
    · split
      · exact recoverForward_onward h
      · exact .rfl p
    · exact .rfl p
  next => exact recoveryCheck_onward p
  all_goals exact .rfl p

theorem feedHold_onward {p : Part} (held : p.diameter.hold = true) : Onward p (feedHold p) := by
  have still := rank_of_still (decision_held held).1
  unfold feedHold
  split
  next h => exact feedDecide_onward (.inr (by rw [still, h]; decide))
  next h => exact feedDecide_onward (.inr (by rw [still, h]; decide))
  next ph h => exact feedDecide_onward (.inr (by rw [still, h]; cases ph <;> decide))
  all_goals exact .rfl _

theorem holdComes_onward (p : Part) : Onward p (holdComes p) := by
  have taken : Onward p (raise .diamReject { p with diameter := { p.diameter with hold := true } }) := .of_same rfl rfl
  exact (feedHold_onward rfl).since taken

theorem holdTest_onward (p : Part) : Onward p (holdTest p) := by
  unfold holdTest
  split
  · exact holdComes_onward p
  · exact .rfl p

/-! ### The stall watch on travel -/

/-- The stall watch once the head travel counter has moved (05 R108). -/
def Part.nextWatch (p : Part) : Option StallWatch :=
  match p.feed.watch, p.feed.state.heading with
  | some w, some h =>
    if 5000 ≤ (if h = .forward then p.length.head - w.base else w.base - p.length.head) then
      some { base := p.length.head, elapsed := 0 }
    else some w
  | w, _ => w

/-- The part with its stall watch moved on. -/
def Part.watched (p : Part) : Part := { p with feed := { p.feed with watch := p.nextWatch } }

theorem nextWatch_of {p : Part} {w : StallWatch} {h : Heading} (hw : p.feed.watch = some w) (hh : p.feed.state.heading = some h) :
    p.nextWatch = if 5000 ≤ (if h = .forward then p.length.head - w.base else w.base - p.length.head) then
      some { base := p.length.head, elapsed := 0 } else some w := by
  unfold Part.nextWatch
  rw [hw, hh]

theorem nextWatch_same {p : Part} (h : p.nextWatch = p.feed.watch) : p.watched = p := by
  unfold Part.watched
  rw [h]

theorem stallProgress_eq (p : Part) : stallProgress p = p.watched := by
  rcases hw : p.feed.watch with _ | w
  · rw [nextWatch_same (by unfold Part.nextWatch; rw [hw])]
    unfold stallProgress
    rw [hw]
  rcases hh : p.feed.state.heading with _ | h
  · rw [nextWatch_same (by unfold Part.nextWatch; rw [hw, hh])]
    unfold stallProgress
    rw [hw, hh]
  have next := nextWatch_of hw hh
  unfold stallProgress
  rw [hw, hh]
  cases h
  all_goals
    dsimp only
    split
    next k =>
      unfold Part.watched
      rw [next]
      simp [k]
    next k => exact (nextWatch_same (next.trans (by simp [k, hw]))).symm

theorem nextWatch_still {p : Part} (h : p.feed.state.motion = false) : p.nextWatch = p.feed.watch := by
  have hh : p.feed.state.heading = none := by simpa [FeedState.motion] using h
  unfold Part.nextWatch
  rw [hh]
  split
  next h' => cases h'
  next => rfl

theorem feedTravel_eq (before : Option Int) (p : Part) : feedTravel before p = feedCompare before p.watched := by
  unfold feedTravel
  rw [stallProgress_eq]

theorem feedTravel_onward (before : Option Int) (p : Part) : Onward p.watched (feedTravel before p) := by
  rw [feedTravel_eq]
  exact feedCompare_onward before p.watched

theorem feedCompare_still (before : Option Int) {p : Part} (h : p.feed.state.motion = false) : feedCompare before p = p := by
  unfold feedCompare
  split
  all_goals first
    | rfl
    | (rename_i k; rw [k] at h; cases h)

/-- In a state in which the feed does not move the stem a count changes nothing at the feed. -/
theorem feedTravel_still (before : Option Int) {p : Part} (h : p.feed.state.motion = false) : feedTravel before p = p := by
  rw [feedTravel_eq, nextWatch_same (nextWatch_still h), feedCompare_still before h]

/-! ### A count at the feed, the hold test made -/

/-- The feed once a count, and the hold test at its end, have been made. -/
def fedTravel (before : Option Int) (p : Part) : Part := holdTest (feedTravelSampled before p)

theorem watched_onward_rank {p q : Part} (h : p.feed.state.rank < q.feed.state.rank) (k : Onward p q) : Onward p.watched q :=
  ⟨k.value, k.held, k.corrections, .inr h⟩

theorem feedTravelSampled_onward (before : Option Int) (p : Part) : Onward p.watched (feedTravelSampled before p) := by
  have drawn : Onward p.watched (feedTravel before { p with draws := p.draws + 1 }) :=
    (feedTravel_onward before { p with draws := p.draws + 1 }).since (.of_same rfl rfl)
  rcases feedTravelSampled_eq before p with h | ⟨hp, -, h | h | h⟩
  · rw [h]
    exact feedTravel_onward before p
  · rw [h]
    exact drawn
  · rw [h]
    exact (holdComes_onward _).since drawn
  · have k := ((holdPasses_iff p).mp hp).2.1
    set q : Part := { p with draws := p.draws + 1 }
    have held : (holdComes q).diameter.hold = true := by rw [(holdComes_feedOnly q).diameter]
    have state : (holdComes q).feed.state = (holdComes q).decision :=
      holdComes_decides (p := q) (k.elim .inl fun h => .inr (.inl h))
    have still : (holdComes q).feed.state.motion = false := by
      rw [state]
      exact (decision_held held).1
    rw [h, feedTravel_still before still]
    refine watched_onward_rank ?_ ((holdComes_onward q).since (.of_same rfl rfl))
    rw [rank_of_still still]
    rcases k with k | k <;> simp [k, FeedState.rank]

theorem fedTravel_onward (before : Option Int) (p : Part) : Onward p.watched (fedTravel before p) :=
  (holdTest_onward _).since (feedTravelSampled_onward before p)

end Sys2Proof.Machine
end

section
namespace Sys2Proof.Machine

/-! ### What a count at the feed leaves alone -/

/-- From `p` to `q` nothing has changed but the feed, its creep interval and its notices, the hold and the free values drawn. -/
def FeedAndHold (p q : Part) : Prop :=
  FeedOnly { p with draws := q.draws, diameter := { p.diameter with hold := q.diameter.hold } } q

theorem FeedOnly.feedAndHold {p q : Part} (h : FeedOnly p q) : FeedAndHold p q := by
  unfold FeedOnly at h
  unfold FeedAndHold FeedOnly
  rw [h]

theorem FeedAndHold.trans {p q t : Part} (h : FeedAndHold p q) (k : FeedAndHold q t) : FeedAndHold p t := by
  unfold FeedAndHold FeedOnly at *
  rw [h] at k
  exact k

/-- The same as `trans`, with the later work named first. -/
theorem FeedAndHold.since {p q t : Part} (k : FeedAndHold q t) (h : FeedAndHold p q) : FeedAndHold p t := h.trans k

protected theorem FeedAndHold.rfl (p : Part) : FeedAndHold p p := (FeedOnly.rfl p).feedAndHold

theorem FeedAndHold.of_draw (p : Part) : FeedAndHold p { p with draws := p.draws + 1 } := FeedOnly.rfl _

theorem holdComes_feedAndHold (p : Part) : FeedAndHold p (holdComes p) := by
  have only := holdComes_feedOnly p
  unfold FeedAndHold
  rw [show (holdComes p).draws = p.draws from only.draws, show (holdComes p).diameter.hold = true by rw [only.diameter]]
  exact only

theorem holdTest_feedAndHold (p : Part) : FeedAndHold p (holdTest p) := by
  unfold holdTest
  split
  · exact holdComes_feedAndHold p
  · exact .rfl p

theorem feedTravelSampled_feedAndHold (before : Option Int) (p : Part) : FeedAndHold p (feedTravelSampled before p) := by
  have travel : ∀ q, FeedAndHold q (feedTravel before q) := fun q => (feedTravel_feedOnly before q).feedAndHold
  rcases feedTravelSampled_eq before p with h | ⟨-, -, h | h | h⟩
  · exact h ▸ travel p
  · exact h ▸ (travel _).since (.of_draw p)
  · exact h ▸ (holdComes_feedAndHold _).since ((travel _).since (.of_draw p))
  · exact h ▸ (travel _).since ((holdComes_feedAndHold _).since (.of_draw p))

theorem fedTravel_feedAndHold (before : Option Int) (p : Part) : FeedAndHold p (fedTravel before p) :=
  (holdTest_feedAndHold _).since (feedTravelSampled_feedAndHold before p)

theorem thin_congr {p q : Part} (samples : q.diameter.samples = p.diameter.samples) (entry : q.diameter.entry = p.diameter.entry) :
    q.thin = p.thin := by
  have now : q.currentDiameter = p.currentDiameter := by
    unfold Part.currentDiameter
    rw [samples]
  unfold Part.thin
  rw [entry, now]

theorem FeedAndHold.thin {p q : Part} (h : FeedAndHold p q) : q.thin = p.thin :=
  thin_congr (by rw [FeedOnly.diameter h]) (by rw [FeedOnly.diameter h])

/-! ### The conditions that a count at the feed raises -/

/-- What a count at the feed may raise. -/
def travelRaises : List Condition := .noEnd :: feedRaises

theorem feedRaises_sub_travelRaises : feedRaises ⊆ travelRaises := List.subset_cons_self ..

theorem targetCompare_works (before : Option Int) (p : Part) : Works feedRaises p (targetCompare before p) := by
  unfold targetCompare
  split
  · split
    · exact .rfl _ p
    · split
      · exact enterFeed_works _ p
      · split
        · exact enterFeed_works _ p
        · exact .rfl _ p
  · exact .rfl _ p

theorem seekEnds_works (p : Part) : Works travelRaises p (seekEnds p) :=
  .since (.of_raise .noEnd _ (by simp [travelRaises]))
    (.after ((feedDecide_works _).mono feedRaises_sub_travelRaises) rfl rfl)

theorem feedCompare_works (before : Option Int) (p : Part) : Works travelRaises p (feedCompare before p) := by
  unfold feedCompare
  split
  · exact (targetCompare_works before p).mono feedRaises_sub_travelRaises
  · exact (targetCompare_works before p).mono feedRaises_sub_travelRaises
  · have settles : ∀ there : Bool, Works travelRaises p (if there then enterFeed .settle p else p) := fun there => by
      split
      · exact (enterFeed_works _ p).mono feedRaises_sub_travelRaises
      · exact .rfl _ p
    split
    · exact settles _
    · exact .rfl _ p
  · split
    · split
      · exact seekEnds_works p
      · exact .rfl _ p
    · exact .rfl _ p
  · split
    · split
      · exact (recoverForward_works p).mono feedRaises_sub_travelRaises
      · exact .rfl _ p
    · exact .rfl _ p
  · exact (recoveryCheck_works p).mono feedRaises_sub_travelRaises
  all_goals exact .rfl _ p

theorem feedTravel_works (before : Option Int) (p : Part) : Works travelRaises p (feedTravel before p) := by
  rw [feedTravel_eq]
  exact (feedCompare_works before p.watched).after rfl rfl

/-- What a count at the feed with a failing sample may raise. -/
def fedRaises : List Condition := .diamReject :: travelRaises

theorem travelRaises_sub_fedRaises : travelRaises ⊆ fedRaises := List.subset_cons_self ..

theorem holdRaises_sub_fedRaises : (.diamReject :: feedRaises) ⊆ fedRaises := List.cons_subset_cons _ feedRaises_sub_travelRaises

theorem feedTravelSampled_works (before : Option Int) (p : Part) : Works fedRaises p (feedTravelSampled before p) := by
  have travel : ∀ q, Works fedRaises q (feedTravel before q) := fun q => (feedTravel_works before q).mono travelRaises_sub_fedRaises
  have comes : ∀ q, Works fedRaises q (holdComes q) := fun q => (holdComes_works q).mono holdRaises_sub_fedRaises
  rcases feedTravelSampled_eq before p with h | ⟨-, -, h | h | h⟩
  · exact h ▸ travel p
  · exact h ▸ (travel _).after rfl rfl
  · exact h ▸ (comes _).since ((travel _).after rfl rfl)
  · exact h ▸ (travel _).since ((comes _).after rfl rfl)

theorem fedTravel_works (before : Option Int) (p : Part) : Works fedRaises p (fedTravel before p) :=
  .since ((holdTest_works _).mono holdRaises_sub_fedRaises) (feedTravelSampled_works before p)

/-! ### The hold in a count -/

/-- The hold stands as it did, and so does its condition. -/
def HoldKept (p q : Part) : Prop := q.diameter.hold = p.diameter.hold ∧ q.raised .diamReject = p.raised .diamReject

/-- A hold is in force, with its condition raised. -/
def HoldCame (q : Part) : Prop := q.diameter.hold = true ∧ q.raised .diamReject = true

/-- The feed works toward its target: FEED or APPROACH. -/
def Part.feeds (p : Part) : Prop := p.feed.state = .feed ∨ p.feed.state = .approach

/-- A sample fails the minimum with no hold in force. -/
def Part.fails (p : Part) : Prop := p.diameter.hold = false ∧ p.thin = true

theorem holdPasses_iff_fails (p : Part) : p.holdPasses = true ↔ p.feeds ∧ p.fails := by
  rw [holdPasses_iff]
  unfold Part.feeds Part.fails
  tauto

theorem feedTravel_holdKept (before : Option Int) (p : Part) : HoldKept p (feedTravel before p) :=
  ⟨by rw [(feedTravel_feedOnly before p).diameter], ((feedTravel_works before p).raises _).2 (by simp [travelRaises, feedRaises])⟩

theorem feedTravel_fails (before : Option Int) (p : Part) : (feedTravel before p).fails ↔ p.fails := by
  unfold Part.fails
  rw [(feedTravel_holdKept before p).1, (feedTravel_feedOnly before p).feedAndHold.thin]

theorem holdComes_came (p : Part) : HoldCame (holdComes p) :=
  ⟨by rw [(holdComes_feedOnly p).diameter], by
    refine (((feedHold_works _).raises _).2 (by simp [feedRaises])).trans ?_
    simp⟩

theorem holdPasses_of_still {p : Part} (h : ¬p.feeds) : p.holdPasses = false := by
  by_contra k
  exact h ((holdPasses_iff_fails p).mp (by simpa using k)).1

/-- A count that neither begins nor ends in FEED or APPROACH is the feed's own travel. -/
theorem fedTravel_still {before : Option Int} {p : Part} (hp : ¬p.feeds) (hz : ¬(feedTravel before p).feeds) :
    fedTravel before p = feedTravel before p := by
  unfold fedTravel feedTravelSampled
  rw [if_neg (by simp [holdPasses_of_still hp]), holdTest_idle (holdPasses_of_still hz)]

/-- With no failing sample a count is the feed's own travel. -/
theorem fedTravel_passing {before : Option Int} {p : Part} (h : ¬p.fails) : fedTravel before p = feedTravel before p := by
  have hp : p.holdPasses = false := by
    by_contra k
    exact h ((holdPasses_iff_fails p).mp (by simpa using k)).2
  have hz : (feedTravel before p).holdPasses = false := by
    by_contra k
    exact h ((feedTravel_fails before p).mp ((holdPasses_iff_fails _).mp (by simpa using k)).2)
  unfold fedTravel feedTravelSampled
  rw [if_neg (by simp [hp]), holdTest_idle hz]

/-- A failing sample where the count leaves the feed in FEED or APPROACH brings the hold. -/
theorem fedTravel_failing {before : Option Int} {p : Part} (h : p.fails) (hz : (feedTravel before p).feeds) :
    (fedTravel before p).feed.state = (fedTravel before p).decision ∧ HoldCame (fedTravel before p) := by
  have moving : (feedTravel before p).feed.state ≠ .settle := by rcases hz with k | k <;> simp [k]
  have passes : (feedTravel before p).holdPasses = true := (holdPasses_iff_fails _).mpr ⟨hz, (feedTravel_fails before p).mpr h⟩
  have e : fedTravel before p = holdComes (feedTravel before p) := by
    unfold fedTravel feedTravelSampled
    rw [if_neg (by simp [moving]), holdTest, if_pos passes]
  rw [e]
  exact ⟨holdComes_decides (hz.elim .inl fun k => .inr (.inl k)), holdComes_came _⟩

/-- Where a count takes a feed in FEED or APPROACH, by the position it reaches (05 R100). -/
def Part.targetState (before : Option Int) (p : Part) : FeedState :=
  match p.feed.held, p.logMm with
  | some e, some pos =>
    if p.length.logPos = before then p.feed.state
    else if e.target - p.stopLead ≤ pos then .settle
    else if p.feed.state = .feed ∧ e.target - p.speciesValue (·.approachDist) ≤ pos then .approach
    else p.feed.state
  | _, _ => p.feed.state

@[simp] theorem enterFeed_self (p : Part) : enterFeed p.feed.state p = p := if_pos rfl

theorem targetState_of {before : Option Int} {p : Part} {e : HeldEntry} {pos : Int} (he : p.feed.held = some e)
    (hp : p.logMm = some pos) : p.targetState before =
      if p.length.logPos = before then p.feed.state
      else if e.target - p.stopLead ≤ pos then .settle
      else if p.feed.state = .feed ∧ e.target - p.speciesValue (·.approachDist) ≤ pos then .approach
      else p.feed.state := by
  unfold Part.targetState
  rw [he, hp]

theorem targetCompare_eq (before : Option Int) (p : Part) : targetCompare before p = enterFeed (p.targetState before) p := by
  rcases he : p.feed.held with _ | e
  · have same : p.targetState before = p.feed.state := by unfold Part.targetState; rw [he]
    rw [same, enterFeed_self, targetCompare, he]
  rcases hp : p.logMm with _ | pos
  · have same : p.targetState before = p.feed.state := by unfold Part.targetState; rw [he, hp]
    rw [same, enterFeed_self, targetCompare, he, hp]
  rw [targetState_of he hp, targetCompare, he, hp]
  dsimp only
  split
  · exact (enterFeed_self p).symm
  · split
    · rfl
    · split
      · rfl
      · exact (enterFeed_self p).symm

theorem feedTravel_target {before : Option Int} {p : Part} (h : p.feeds) :
    feedTravel before p = enterFeed (p.targetState before) p.watched := by
  have compare : feedCompare before p.watched = targetCompare before p.watched := by
    rcases h with h | h <;> simp [feedCompare, Part.watched, h]
  rw [feedTravel_eq, compare, targetCompare_eq]
  rfl

/-- A feed that has reached SETTLE only records a hold. -/
theorem holdComes_settled {p : Part} (h : p.feed.state = .settle) : (holdComes p).feed.state = .settle := by
  have e : holdComes p = raise .diamReject { p with diameter := { p.diameter with hold := true } } :=
    feedHold_stopped (p := raise .diamReject { p with diameter := { p.diameter with hold := true } }) (.inl h)
  rw [e]
  exact h

/-- A failing sample where the count brings the feed to SETTLE: the order is free (log 31). -/
theorem fedTravel_meeting {before : Option Int} {p : Part} (hp : p.feeds)
    (hz : (feedTravel before p).feed.state = .settle) : let t := fedTravel before p
    (t.feed.state = .settle ∧ HoldKept p t) ∨ (t.feed.state = .settle ∧ HoldCame t) ∨ (t.feed.state = t.decision ∧ HoldCame t) := by
  intro t
  have drawn : (feedTravel before { p with draws := p.draws + 1 }).feed.state = .settle := by
    rw [feedTravel_target (p := { p with draws := p.draws + 1 }) hp, enterFeed_state]
    rwa [feedTravel_target hp, enterFeed_state] at hz
  have ended : ∀ x, feedTravelSampled before p = x → x.feed.state = .settle ∨ (x.feed.state = x.decision ∧ HoldCame x) → t = x :=
    fun x hx hs => by
      have still : ¬x.feeds := by
        rcases hs with hs | ⟨hs, held⟩
        · simp [Part.feeds, hs]
        · have k := (decision_held held.1).1
          rw [← hs] at k
          rintro (e | e) <;> simp [e, FeedState.motion, FeedState.heading] at k
      exact (congrArg holdTest hx).trans (holdTest_idle (holdPasses_of_still still))
  rcases feedTravelSampled_eq before p with e | ⟨-, -, e | e | e⟩
  · rw [ended _ e (.inl hz)]
    exact .inl ⟨hz, feedTravel_holdKept before p⟩
  · rw [ended _ e (.inl drawn)]
    exact .inl ⟨drawn, feedTravel_holdKept before { p with draws := p.draws + 1 }⟩
  · have settled := holdComes_settled drawn
    rw [ended _ e (.inl settled)]
    exact .inr (.inl ⟨settled, holdComes_came _⟩)
  · set x := holdComes { p with draws := p.draws + 1 }
    have decides : x.feed.state = x.decision :=
      holdComes_decides (p := { p with draws := p.draws + 1 }) (hp.elim .inl fun k => .inr (.inl k))
    have came : HoldCame x := holdComes_came _
    have still : x.feed.state.motion = false := by
      rw [decides]
      exact (decision_held came.1).1
    rw [feedTravel_still before still] at e
    rw [ended _ e (.inr ⟨decides, came⟩)]
    exact .inr (.inr ⟨decides, came⟩)

end Sys2Proof.Machine
end

section
namespace Sys2Proof.Machine

/-! ### A count at the feed, state by state -/



theorem feedTravel_correct {before : Option Int} {p : Part} {h : Heading} {e : HeldEntry} {pos : Int}
    (hs : p.feed.state = .correct h) (he : p.feed.held = some e) (hp : p.logMm = some pos) :
    (feedTravel before p).feed.state =
      if (h = .forward ∧ e.target ≤ pos) ∨ (h = .reverse ∧ pos ≤ e.target) then .settle else .correct h := by
  have compare : feedCompare before p.watched =
      if (h = .forward ∧ e.target ≤ pos) ∨ (h = .reverse ∧ pos ≤ e.target) then enterFeed .settle p.watched else p.watched := by
    unfold feedCompare
    rw [show p.watched.feed.state = _ from hs, show p.watched.feed.held = _ from he, show p.watched.logMm = _ from hp]
    cases h <;> simp
  rw [feedTravel_eq, compare]
  split
  · exact enterFeed_state _ _
  · exact hs

/-- Whether a recovery with a stall point, an entry and a position has succeeded (05 R111). -/
theorem recoverySucceeds_iff {p : Part} {x pos : Int} {e : HeldEntry} (hx : p.feed.stallPoint = some x)
    (he : p.feed.held = some e) (hp : p.logMm = some pos) :
    p.recoverySucceeds = true ↔ x + 200000 ≤ p.length.head ∨ e.target - p.setting 9 ≤ pos := by
  unfold Part.recoverySucceeds Part.stopLead
  rw [hx, he, hp]
  simp

theorem enterFeed_recover (ph : Phase) (p : Part) :
    (enterFeed (.recover ph) p).feed.attempts = p.feed.attempts
      ∧ (enterFeed (.recover ph) p).feed.stallPoint = p.feed.stallPoint := by
  rw [enterFeed_feed]
  split
  · exact ⟨rfl, rfl⟩
  · exact ⟨rfl, rfl⟩

/-- The back phase of a recovery with the stall point near and the target ahead. -/
theorem feedTravel_back {before : Option Int} {p : Part} {x pos : Int} {e : HeldEntry} (hs : p.feed.state = .recover .back)
    (hx : p.feed.stallPoint = some x) (he : p.feed.held = some e) (hp : p.logMm = some pos)
    (near : p.length.head < x + 200000) (ahead : pos < e.target - p.setting 9) :
    (feedTravel before p).feed.state = .recover (if p.setting 12 * 1000 ≤ x - p.length.head then .forward else .back)
      ∧ (feedTravel before p).feed.attempts = p.feed.attempts ∧ (feedTravel before p).feed.stallPoint = some x := by
  have compare : feedCompare before p.watched =
      if p.setting 12 * 1000 ≤ x - p.length.head then recoverForward p.watched else p.watched := by
    unfold feedCompare
    rw [show p.watched.feed.state = _ from hs, show p.watched.feed.stallPoint = _ from hx]
    rfl
  have stays : recoverForward p.watched = enterFeed (.recover .forward) p.watched := by
    have only := enterFeed_feedOnly (.recover .forward) p.watched
    have kept := enterFeed_recover .forward p.watched
    have fails : ¬(enterFeed (.recover .forward) p.watched).recoverySucceeds = true := by
      rw [recoverySucceeds_iff (kept.2.trans hx) ((enterFeed_held _ _).trans he) (pos := pos)]
      · rw [only.head, show (enterFeed (.recover .forward) p.watched).setting 9 = p.setting 9 by
          unfold Part.setting; rw [only.store]; rfl]
        exact fun h => h.elim (fun h => absurd h (not_le.mpr near)) (fun h => by omega)
      · unfold Part.logMm
        rw [only.logPos]
        exact hp
    unfold recoverForward recoveryCheck
    rw [if_neg fun h => fails h.2]
  rw [feedTravel_eq, compare]
  split
  · rw [stays]
    obtain ⟨ha, hsp⟩ := enterFeed_recover .forward p.watched
    exact ⟨enterFeed_state _ _, ha, hsp.trans hx⟩
  · exact ⟨hs, rfl, hx⟩

theorem feedTravel_forward {before : Option Int} {p : Part} (hs : p.feed.state = .recover .forward) :
    feedTravel before p = if p.recoverySucceeds = true then enterFeed p.placement p.watched else p.watched := by
  have compare : feedCompare before p.watched = recoveryCheck p.watched := by
    unfold feedCompare
    rw [show p.watched.feed.state = _ from hs]
  have held : p.watched.feed.state = .recover .forward := hs
  rw [feedTravel_eq, compare, recoveryCheck]
  simp only [held, true_and]
  rfl

/-- The placement of an entry at a position (05 R99). -/
theorem placement_of {p : Part} {e : HeldEntry} {pos : Int} (he : p.feed.held = some e) (hp : p.logMm = some pos) :
    p.placement = if e.target - p.setting 9 ≤ pos then .settle
      else if e.target - p.speciesValue (·.approachDist) ≤ pos then .approach else .feed := by
  unfold Part.placement Part.stopLead
  rw [he, hp]

theorem enterFeed_placement_attempts {p : Part} (st : FeedState) (h : p.feed.state = .recover .forward)
    (hst : st.keepsAttempts = false) : (enterFeed st p).feed.attempts = 0 := by
  rw [enterFeed_feed, if_neg (by rw [h]; rintro rfl; cases hst)]
  simp [Feed.enter, hst]

theorem enterFeed_attempts_zero {p : Part} (st : FeedState) (h : p.feed.attempts = 0) : (enterFeed st p).feed.attempts = 0 := by
  rw [enterFeed_feed]
  split
  · exact h
  · simp [Feed.enter, h]

theorem holdTest_attempts_zero {p : Part} (h : p.feed.attempts = 0) : (holdTest p).feed.attempts = 0 := by
  have decide : ∀ q : Part, q.feed.attempts = 0 → (feedDecide q).feed.attempts = 0 := fun q hq =>
    enterFeed_attempts_zero (p := { q with feed := q.feed.withdraw }) _ hq
  have hold : ∀ q : Part, q.feed.attempts = 0 → (feedHold q).feed.attempts = 0 := fun q hq => by
    unfold feedHold
    split
    all_goals first
      | exact decide q hq
      | exact hq
  unfold holdTest
  split
  · exact hold _ h
  · exact h

/-- SEEK at a count (05 R106). -/
theorem feedTravel_seek {before : Option Int} {p : Part} {x : Int} (hs : p.feed.state = .seek) (hx : p.feed.seekStart = some x) :
    feedTravel before p = if p.setting 5 * 1000 ≤ x - p.length.head then seekEnds p.watched else p.watched := by
  have compare : feedCompare before p.watched =
      if p.setting 5 * 1000 ≤ x - p.length.head then seekEnds p.watched else p.watched := by
    unfold feedCompare
    rw [show p.watched.feed.state = _ from hs, show p.watched.feed.seekStart = _ from hx]
    rfl
  rw [feedTravel_eq, compare]

theorem seekEnds_decides (p : Part) : (seekEnds p).feed.state = (seekEnds p).decision ∧ (seekEnds p).feed.seekSpent = true
    ∧ (seekEnds p).raised .noEnd = true := by
  refine ⟨?_, ?_, ?_⟩
  · change (feedDecide { p with feed := { p.feed with seekSpent := true } }).feed.state
      = (feedDecide { p with feed := { p.feed with seekSpent := true } }).decision
    rw [feedDecide_state, feedDecide_decision]
  · change (feedDecide { p with feed := { p.feed with seekSpent := true } }).feed.seekSpent = true
    rw [feedDecide_seekSpent]
  · unfold seekEnds
    simp

theorem holdTest_seekSpent (p : Part) : (holdTest p).feed.seekSpent = p.feed.seekSpent := by
  have hold : ∀ q : Part, (feedHold q).feed.seekSpent = q.feed.seekSpent := fun q => by
    unfold feedHold
    split <;> simp
  unfold holdTest
  split
  · exact hold _
  · rfl

/-! ### A count seen from its beginning -/

/-- From `p` to `y` a count of `d` of the selected source has moved the sums, taken its sample and crossing and run the creep watch;
the end sensor, the feed and the guidance have still to follow. -/
structure Counted (d : Int) (p y : Part) : Prop where
  table : y.table = p.table
  store : y.store = p.store
  saw : y.saw = p.saw
  feed : y.feed = p.feed
  monitor : y.monitor = p.monitor
  draws : y.draws = p.draws
  head : y.length.head = p.length.head + d
  logPos : y.length.logPos = p.movedPos d
  carryPos : y.length.carry.map (·.pos) = p.length.carry.map fun c => movedTo d c.pos
  mirror : y.length.mirror = p.length.mirror
  endPending : y.length.endPending = p.length.endPending
  endCovered : y.length.endCovered = p.length.endCovered
  entry : y.diameter.entry = p.diameter.entry
  hold : y.diameter.hold = p.diameter.hold
  sampled : Sampled d p y
  mid : MidWatched d p y
  creep : CreepWatched d p y
  raised : ∀ c, c ≠ .creep → y.raised c = p.raised c
  boot : y.boot = p.boot
  busOff : y.link.busOff = p.link.busOff
  list : p.link.sendList <+: y.link.sendList
  short : y.link.sendList.length ≤ p.link.sendList.length + 1

theorem Counted.setting {d : Int} {p y : Part} (c : Counted d p y) (n : Fin 40) : y.setting n = p.setting n := by
  unfold Part.setting
  rw [c.store]

theorem speciesValue_congr {p q : Part} (table : q.table = p.table) (store : q.store = p.store) (f : Species → Int) :
    q.speciesValue f = p.speciesValue f := by
  have hrec : q.recordAt = p.recordAt := by funext i; unfold Part.recordAt; rw [table]
  have hact : q.isActive = p.isActive := by funext i; unfold Part.isActive; rw [hrec]
  unfold Part.speciesValue Part.inUse Part.activeRecord Part.activeSlot
  rw [hact, hrec, store]

theorem Counted.logMm {d : Int} {p y : Part} (c : Counted d p y) : y.logMm = p.movedMm d := by
  unfold Part.logMm Part.movedMm
  rw [c.logPos]

/-- What the feed has compared, seen over what leaves the feed's view. -/
theorem FeedCompared.seen {d : Int} {p t q : Part} (h : FeedCompared d p t) (k : SameFed t q)
    (reject : q.raised .diamReject = t.raised .diamReject) (noEnd : q.raised .noEnd = t.raised .noEnd) : FeedCompared d p q := by
  unfold FeedCompared at *
  rw [k.feed, k.decision, k.thin, k.hold, reject, noEnd]
  exact h

/-- FEED and APPROACH in a count. -/
theorem fed_target {d : Int} {p y t : Part} {e : HeldEntry} {pos : Int} (c : Counted d p y) (ht : t = fedTravel p.length.logPos y)
    (hs : p.feed.state = .feed ∨ p.feed.state = .approach) (he : p.feed.held = some e) (hp : p.movedMm d = some pos) :
    let stop := e.target - p.setting 9
    let near := e.target - p.speciesValue (·.approachDist)
    (p.movedPos d = p.length.logPos →
        (¬y.fails → t.feed.state = p.feed.state ∧ HoldKept y t) ∧ (y.fails → t.feed.state = t.decision ∧ HoldCame t))
      ∧ (p.movedPos d ≠ p.length.logPos →
        (stop ≤ pos → ¬y.fails → t.feed.state = .settle ∧ t.feed.settle = some 0 ∧ HoldKept y t)
          ∧ (stop ≤ pos → y.fails → (t.feed.state = .settle ∧ HoldKept y t) ∨ (t.feed.state = .settle ∧ HoldCame t)
              ∨ (t.feed.state = t.decision ∧ HoldCame t))
          ∧ (pos < stop → ¬y.fails → t.feed.state = (if near ≤ pos then .approach else p.feed.state) ∧ HoldKept y t)
          ∧ (pos < stop → y.fails → t.feed.state = t.decision ∧ HoldCame t)) := by
  intro stop near
  have feeds : y.feeds := by rwa [Part.feeds, c.feed]
  have kept := feedTravel_holdKept p.length.logPos y
  have target := targetState_of (before := p.length.logPos) ((congrArg Feed.held c.feed).trans he) (c.logMm.trans hp)
  rw [show y.stopLead = p.setting 9 from c.setting 9, speciesValue_congr c.table c.store, c.feed, c.logPos] at target
  have travel := feedTravel_target (before := p.length.logPos) feeds
  have state : (feedTravel p.length.logPos y).feed.state = y.targetState p.length.logPos := by
    rw [travel, enterFeed_state]
  have passing : ¬y.fails → t.feed.state = y.targetState p.length.logPos ∧ HoldKept y t := fun hf => by
    rw [ht, fedTravel_passing hf]
    exact ⟨state, kept⟩
  have failing : y.fails → y.targetState p.length.logPos = .feed ∨ y.targetState p.length.logPos = .approach →
      t.feed.state = t.decision ∧ HoldCame t := fun hf hz => by
    rw [ht]
    exact fedTravel_failing hf (by rwa [Part.feeds, state])
  refine ⟨fun same => ?_, fun moved => ⟨fun hstop hf => ?_, fun hstop hf => ?_, fun hstop hf => ?_, fun hstop hf => ?_⟩⟩
  · rw [if_pos same] at target
    refine ⟨fun hf => ?_, fun hf => failing hf (by rwa [target])⟩
    rw [← target]
    exact passing hf
  · rw [if_neg moved, if_pos hstop] at target
    obtain ⟨hst, hk⟩ := passing hf
    refine ⟨hst.trans target, ?_, hk⟩
    rw [ht, fedTravel_passing hf, travel, target, enterFeed_feed, if_neg (by
      rw [show y.watched.feed.state = p.feed.state from (show y.feed.state = p.feed.state by rw [c.feed])]
      rcases hs with hs | hs <;> simp [hs])]
    rfl
  · rw [if_neg moved, if_pos hstop] at target
    rw [ht]
    exact fedTravel_meeting feeds (state.trans target)
  · rw [if_neg moved, if_neg (by omega)] at target
    obtain ⟨hst, hk⟩ := passing hf
    refine ⟨hst.trans (target.trans ?_), hk⟩
    rcases hs with hs | hs <;> simp [hs, near]
  · rw [if_neg moved, if_neg (by omega)] at target
    refine failing hf ?_
    rw [target]
    rcases hs with hs | hs <;> simp only [hs] <;> split <;> simp

/-- A recovery's forward phase in a count. -/
theorem fed_forward {d : Int} {p y t : Part} {e : HeldEntry} {pos x : Int} (c : Counted d p y)
    (ht : t = fedTravel p.length.logPos y) (hs : p.feed.state = .recover .forward) (hx : p.feed.stallPoint = some x)
    (he : p.feed.held = some e) (hp : p.movedMm d = some pos) :
    let head := p.length.head + d
    let stop := e.target - p.setting 9
    let near := e.target - p.speciesValue (·.approachDist)
    (head < x + 200000 → pos < stop → t.feed.state = .recover .forward ∧ t.feed.attempts = p.feed.attempts ∧ HoldKept y t)
      ∧ (x + 200000 ≤ head ∨ stop ≤ pos → t.feed.attempts = 0
        ∧ (stop ≤ pos → t.feed.state = .settle ∧ HoldKept y t)
        ∧ (pos < stop → ¬y.fails → t.feed.state = (if near ≤ pos then .approach else .feed) ∧ HoldKept y t)
        ∧ (pos < stop → y.fails → t.feed.state = t.decision ∧ HoldCame t)) := by
  intro head stop near
  have hs' : y.feed.state = .recover .forward := by rw [c.feed, hs]
  have he' : y.feed.held = some e := by rw [c.feed, he]
  have still : ¬y.feeds := by simp [Part.feeds, hs']
  have kept := feedTravel_holdKept p.length.logPos y
  have travel := feedTravel_forward (before := p.length.logPos) hs'
  have succeeds := recoverySucceeds_iff (by rw [c.feed, hx]) he' (c.logMm.trans hp)
  have place := placement_of he' (c.logMm.trans hp)
  rw [c.head, c.setting 9] at succeeds
  rw [c.setting 9, speciesValue_congr c.table c.store] at place
  refine ⟨fun h1 h2 => ?_, fun h => ?_⟩
  · rw [if_neg (by rw [succeeds]; omega)] at travel
    have off : ¬(feedTravel p.length.logPos y).feeds := by
      rw [travel]
      exact still
    rw [ht, fedTravel_still still off, travel]
    exact ⟨hs', (show y.feed.attempts = p.feed.attempts by rw [c.feed]), travel ▸ kept⟩
  · rw [if_pos (succeeds.mpr h)] at travel
    have state : (feedTravel p.length.logPos y).feed.state = y.placement := by rw [travel, enterFeed_state]
    have attempts : (feedTravel p.length.logPos y).feed.attempts = 0 := by
      rw [travel]
      refine enterFeed_placement_attempts (p := y.watched) _ hs' ?_
      rcases placement_cases y with k | k | k | k <;> simp [k, FeedState.keepsAttempts]
    have sampled : feedTravelSampled p.length.logPos y = feedTravel p.length.logPos y := by
      unfold feedTravelSampled
      rw [if_neg (by simp [holdPasses_of_still still])]
    refine ⟨?_, fun hstop => ?_, fun hstop hf => ?_, fun hstop hf => ?_⟩
    · rw [ht, fedTravel, sampled]
      exact holdTest_attempts_zero attempts
    · rw [if_pos hstop] at place
      rw [ht, fedTravel_still still (by simp [Part.feeds, state, place])]
      exact ⟨state.trans place, kept⟩
    · rw [if_neg (by omega)] at place
      rw [ht, fedTravel_passing hf]
      exact ⟨state.trans place, kept⟩
    · rw [if_neg (by omega)] at place
      rw [ht]
      refine fedTravel_failing hf ?_
      unfold Part.feeds
      rw [state, place]
      split <;> simp

/-- SEEK in a count. -/
theorem fed_seek {d : Int} {p y t : Part} {x : Int} (c : Counted d p y) (ht : t = fedTravel p.length.logPos y)
    (hs : p.feed.state = .seek) (hx : p.feed.seekStart = some x) :
    (x - (p.length.head + d) < p.setting 5 * 1000 → t.feed.state = .seek ∧ t.raised .noEnd = p.raised .noEnd)
      ∧ (p.setting 5 * 1000 ≤ x - (p.length.head + d) →
        t.feed.seekSpent = true ∧ t.feed.state = t.decision ∧ t.raised .noEnd = true) := by
  have hs' : y.feed.state = .seek := by rw [c.feed, hs]
  have still : ¬y.feeds := by simp [Part.feeds, hs']
  have travel := feedTravel_seek (before := p.length.logPos) hs' (show y.feed.seekStart = some x by rw [c.feed, hx])
  rw [c.setting 5, c.head] at travel
  have sampled : feedTravelSampled p.length.logPos y = feedTravel p.length.logPos y := by
    unfold feedTravelSampled
    rw [if_neg (by simp [holdPasses_of_still still])]
  refine ⟨fun h => ?_, fun h => ?_⟩
  · rw [if_neg (by omega)] at travel
    have off : ¬(feedTravel p.length.logPos y).feeds := by
      rw [travel]
      exact still
    rw [ht, fedTravel_still still off, travel]
    exact ⟨hs', c.raised _ (by simp)⟩
  · rw [if_pos h] at travel
    obtain ⟨hst, hsp, hne⟩ := seekEnds_decides y.watched
    have te : t = holdTest (seekEnds y.watched) := by rw [ht, fedTravel, sampled, travel]
    refine ⟨?_, ?_, ?_⟩
    · rw [te, holdTest_seekSpent, hsp]
    · rw [te]
      unfold holdTest
      split
      next k => exact holdComes_decides (((holdPasses_iff_fails _).mp k).1.elim .inl fun k => .inr (.inl k))
      next => exact hst
    · rw [te, ((holdTest_works _).raises _).2 (by simp [feedRaises]), hne]

/-- What a count whose sensor change does not qualify does at the feed. -/
theorem fed_compared {d : Int} {p y t : Part} (c : Counted d p y) (ht : t = fedTravel p.length.logPos y) : FeedCompared d p t := by
  have goes : Onward y.watched t := ht ▸ fedTravel_onward _ y
  have thin : t.thin = y.thin := ht ▸ (fedTravel_feedAndHold _ y).thin
  have fails : (p.diameter.hold = false ∧ t.thin = true) = y.fails := by
    rw [thin, ← c.hold]
    rfl
  have reject : p.raised .diamReject = y.raised .diamReject := (c.raised _ (by simp)).symm
  have still : p.feed.state.motion = false → t = y := fun h => by
    have hy : y.feed.state.motion = false := by rw [c.feed, h]
    have off : ¬y.feeds := by
      rintro (k | k) <;> simp [k, FeedState.motion, FeedState.heading] at hy
    rw [ht, fedTravel_still off (by rwa [feedTravel_still _ hy]), feedTravel_still _ hy]
  unfold FeedCompared
  dsimp only
  rw [fails, reject, ← c.hold]
  refine ⟨goes.value.trans (by rw [← c.feed]; rfl), goes.held.trans (by rw [← c.feed]; rfl),
    goes.corrections.trans (by rw [← c.feed]; rfl), fun h => ?_, fun w h hw hh hst => ?_, fun e pos he hp => ?_,
    fun x hs hx => fed_seek c ht hs hx⟩
  · rw [still h]
    exact ⟨c.feed, rfl, rfl⟩
  · have stays : t.feed.state = y.watched.feed.state := hst.trans (show p.feed.state = y.feed.state by rw [c.feed])
    obtain ⟨-, -, watch⟩ := goes.goes.resolve_right (by rw [stays]; exact lt_irrefl _)
    rw [watch, ← c.head]
    exact nextWatch_of (by rw [c.feed, hw]) (by rw [c.feed, hh])
  · refine ⟨fun hs => (fed_target c ht hs he hp).1, fun hs => (fed_target c ht hs he hp).2, fun h hs => ?_, fun x hx =>
      ⟨fun hs near ahead => ?_, fun hs => fed_forward c ht hs hx he hp⟩⟩
    · have hs' : y.feed.state = .correct h := by rw [c.feed, hs]
      have off : ¬y.feeds := by simp [Part.feeds, hs']
      have state := feedTravel_correct (before := p.length.logPos) hs' (by rw [c.feed, he]) (c.logMm.trans hp)
      have off' : ¬(feedTravel p.length.logPos y).feeds := by
        unfold Part.feeds
        rw [state]
        split <;> simp
      rw [ht, fedTravel_still off off']
      exact ⟨state, feedTravel_holdKept _ y⟩
    · have hs' : y.feed.state = .recover .back := by rw [c.feed, hs]
      have off : ¬y.feeds := by simp [Part.feeds, hs']
      obtain ⟨state, attempts, stall⟩ := feedTravel_back (before := p.length.logPos) hs' (by rw [c.feed, hx]) (by rw [c.feed, he])
        (c.logMm.trans hp) (by rwa [c.head]) (by rwa [c.setting 9])
      have off' : ¬(feedTravel p.length.logPos y).feeds := by simp [Part.feeds, state]
      rw [ht, fedTravel_still off off']
      refine ⟨?_, attempts.trans (by rw [c.feed]), stall, feedTravel_holdKept _ y⟩
      rw [state, c.setting 12, c.head]

end Sys2Proof.Machine
end

section
namespace Sys2Proof.Machine

/-! ### The sums, the sample and the crossing -/

/-- A count of the selected source up to its creep watch. -/
def crossed (d : Int) (p : Part) : Part :=
  let q := sampleDue (moveSums d p)
  if 0 < d then midCross p.length.logPos q else q

/-- A count of the selected source up to its end sensor. -/
def beforeSensor (d : Int) (p : Part) : Part := creepCheck (crossed d p)

theorem selectedTravel_eq (d : Int) (p : Part) : selectedTravel d p =
    guidanceTravel p.length.logPos (feedTravelSampled p.length.logPos (endQualify (beforeSensor d p))) := rfl

theorem takeSample_eq (p : Part) :
    takeSample p = { p with diameter := { p.diameter with samples := (takeSample p).diameter.samples } } := by
  unfold takeSample
  split <;> rfl

theorem sampleDue_eq (p : Part) : sampleDue p = { p with diameter := { p.diameter with
    samples := (sampleDue p).diameter.samples, distance := (sampleDue p).diameter.distance } } := by
  unfold sampleDue
  split
  · split
    · dsimp only
      rw [takeSample_eq]
    · rfl
  · rfl

theorem midCross_eq (before : Option Int) (p : Part) :
    midCross before p = { p with diameter := { p.diameter with mid := (midCross before p).diameter.mid } } := by
  unfold midCross
  split
  · split <;> rfl
  · rfl

theorem takeSample_moveSums (d : Int) (p : Part) :
    (takeSample (moveSums d p)).diameter.samples = (takeSample p).diameter.samples := by
  unfold takeSample
  rw [show (moveSums d p).overBark4 = p.overBark4 from rfl, show (moveSums d p).inUse = p.inUse from rfl]
  split <;> rfl

/-- The sample that a count is due, by the distance travelled since the last one. -/
theorem sampleDue_sampled (d : Int) (p : Part) : Sampled d p (sampleDue (moveSums d p)) := by
  refine ⟨fun h => ?_, fun x h => ⟨fun hx => ?_, fun hx => ?_⟩⟩
  · have none : (moveSums d p).diameter.distance = none := by simp [moveSums, h]
    unfold sampleDue
    rw [none]
    exact ⟨none, rfl⟩
  · have some : (moveSums d p).diameter.distance = some (x + d.natAbs) := by simp [moveSums, h]
    unfold sampleDue
    rw [some]
    dsimp only
    rw [if_neg (by rw [show (moveSums d p).setting 17 = p.setting 17 from rfl]; omega)]
    exact ⟨some, rfl⟩
  · have some : (moveSums d p).diameter.distance = some (x + d.natAbs) := by simp [moveSums, h]
    unfold sampleDue
    rw [some]
    dsimp only
    rw [if_pos (by rw [show (moveSums d p).setting 17 = p.setting 17 from rfl]; exact hx)]
    exact ⟨rfl, takeSample_moveSums d p⟩

theorem crossed_still (d : Int) (p : Part) (h : ¬0 < d) : crossed d p = sampleDue (moveSums d p) := by
  unfold crossed
  dsimp only
  rw [if_neg h]

theorem crossed_forward (d : Int) (p : Part) (h : 0 < d) :
    crossed d p = midCross p.length.logPos (sampleDue (moveSums d p)) := by
  unfold crossed
  dsimp only
  rw [if_pos h]

/-- Up to its creep watch a count moves the sums and, in the diameter unit, samples, distance and crossing. -/
theorem crossed_eq (d : Int) (p : Part) : crossed d p = { moveSums d p with diameter := { p.diameter with
    samples := (sampleDue (moveSums d p)).diameter.samples, distance := (sampleDue (moveSums d p)).diameter.distance
    mid := (crossed d p).diameter.mid } } := by
  by_cases h : 0 < d
  · rw [crossed_forward d p h, midCross_eq, sampleDue_eq]
    rfl
  · rw [crossed_still d p h, sampleDue_eq]
    rfl

theorem midCross_crosses {before : Option Int} {p : Part} {b a t : Int} (hb : before = some b) (ha : p.length.logPos = some a)
    (ht : p.diameter.mid.target = some t) : midCross before p =
      if b < 500 * t ∧ 500 * t ≤ a ∧ p.diameter.mid.crossed = false then
        { p with diameter := { p.diameter with mid := { p.diameter.mid with capture := p.currentDiameter, crossed := true } } }
      else p := by
  unfold midCross
  rw [hb, ha, ht]

theorem midCross_idle {before : Option Int} {p : Part}
    (h : p.diameter.mid.crossed = true ∨ before = none ∨ p.diameter.mid.target = none) : midCross before p = p := by
  unfold midCross
  split
  · rcases h with h | h | h <;> simp_all
  · rfl

theorem crossed_midWatched (d : Int) (p : Part) : MidWatched d p (crossed d p) := by
  set s := sampleDue (moveSums d p) with hs
  have mid : s.diameter.mid = p.diameter.mid := by
    rw [hs, sampleDue_eq]
    rfl
  have pos : s.length.logPos = p.movedPos d := by
    rw [hs, sampleDue_eq]
    rfl
  refine ⟨fun hd hc x t hx ht => ?_, fun h => ?_⟩
  · have moved : s.length.logPos = some (movedTo d x) := by rw [pos, Part.movedPos, hx]; rfl
    have e := midCross_crosses hx moved (by rw [mid, ht])
    rw [mid] at e
    rw [crossed_forward d p hd, e]
    refine ⟨fun h1 h2 => ?_, fun h => ?_⟩
    · rw [if_pos ⟨h1, h2, hc⟩]
      rfl
    · rw [if_neg (by omega)]
      exact mid
  · by_cases hd : 0 < d
    · rw [crossed_forward d p hd, midCross_idle (by rw [← hs, mid]; exact h.resolve_left (by omega))]
      exact mid
    · rw [crossed_still d p hd]
      exact mid

/-! ### The creep watch -/

/-- The part once the creep watch has found its interval `c` too far (03 R72). -/
def creptFrom (c : CreepInterval) (p : Part) : Part :=
  raise .creep { p with length := { p.length.flagCreep with creep := some { c with found := true } } }

theorem creepCheck_none {p : Part} (h : p.length.creep = none) : creepCheck p = p := by
  unfold creepCheck
  rw [h]

theorem creepCheck_some {p : Part} {c : CreepInterval} (h : p.length.creep = some c) : creepCheck p =
    if c.found = false ∧ p.speciesValue (·.creepThreshold) * 1000 < ((p.length.head - c.start).natAbs : Int) then creptFrom c p
    else p := by
  unfold creepCheck
  rw [h]
  rfl

theorem creepCheck_cases (p : Part) : creepCheck p = p ∨ ∃ c, p.length.creep = some c ∧ creepCheck p = creptFrom c p := by
  rcases h : p.length.creep with _ | c
  · exact .inl (creepCheck_none h)
  · rw [creepCheck_some h]
    split
    · exact .inr ⟨c, rfl, rfl⟩
    · exact .inl rfl

/-- The creep watch flags and raises; nothing else changes. -/
theorem creepCheck_eq (p : Part) : creepCheck p = { p with
    length := { p.length with
      history := (creepCheck p).length.history, carry := (creepCheck p).length.carry, creep := (creepCheck p).length.creep }
    link := { p.link with conditions := (creepCheck p).link.conditions, sendList := (creepCheck p).link.sendList } } := by
  rcases creepCheck_cases p with h | ⟨c, -, h⟩
  · rw [h]
  · rw [h]
    rfl

theorem raise_list_short (c : Condition) (p : Part) : (raise c p).link.sendList.length ≤ p.link.sendList.length + 1 := by
  unfold raise
  dsimp only
  split <;> simp

/-- What the creep watch changes in the log and the carry: the creep flag alone. -/
theorem creepCheck_logs (p : Part) :
    (creepCheck p).length.history.map (fun h => (h.mark, h.slip, h.raw)) = p.length.history.map (fun h => (h.mark, h.slip, h.raw))
      ∧ (creepCheck p).length.carry.map (fun c => (c.pos, c.log.mark, c.log.slip, c.log.raw))
        = p.length.carry.map (fun c => (c.pos, c.log.mark, c.log.slip, c.log.raw)) := by
  rcases creepCheck_cases p with h | ⟨c, -, h⟩
  · rw [h]
    exact ⟨rfl, rfl⟩
  · rw [h]
    constructor
    · change (p.length.history.map _).map _ = _
      rw [Option.map_map]
      rfl
    · change (p.length.carry.map _).map _ = _
      rw [Option.map_map]
      rfl

theorem beforeSensor_creepWatched (d : Int) (p : Part) : CreepWatched d p (beforeSensor d p) := by
  have len : (crossed d p).length = (moveSums d p).length := by rw [crossed_eq]
  have link : (crossed d p).link = p.link := by rw [crossed_eq]; rfl
  have raised : (crossed d p).raised .creep = p.raised .creep := by rw [Part.raised, link]; rfl
  have carry : (crossed d p).length.carry.map (·.log.creep) = p.length.carry.map (·.log.creep) := by
    rw [len]
    change (p.length.carry.map _).map _ = _
    rw [Option.map_map]
    rfl
  have species : (crossed d p).speciesValue (·.creepThreshold) = p.speciesValue (·.creepThreshold) := by
    rw [crossed_eq]
    rfl
  unfold beforeSensor
  refine ⟨fun h => ?_, fun c h => ?_⟩
  · rw [creepCheck_none (by rw [len]; exact h)]
    exact ⟨raised, by rw [len]; rfl, carry⟩
  · have e := creepCheck_some (p := crossed d p) (c := c) (by rw [len]; exact h)
    rw [species, show (crossed d p).length.head = p.length.head + d by rw [len]; rfl] at e
    refine ⟨fun hf far => ?_, fun hk => ?_⟩
    · rw [e, if_pos ⟨hf, far⟩]
      refine ⟨by simp [creptFrom], fun l hl => ?_, fun x hx => ?_, fun _ => rfl⟩
      · obtain ⟨l', -, rfl⟩ := Option.map_eq_some_iff.mp hl
        rfl
      · obtain ⟨x', -, rfl⟩ := Option.map_eq_some_iff.mp hx
        rfl
    · rw [e, if_neg (by rintro ⟨h1, h2⟩; exact hk.elim (fun k => by simp [h1] at k) (fun k => k h2))]
      exact ⟨⟨raised, by rw [len]; rfl, carry⟩, fun _ => by rw [len]; exact h⟩

theorem MidWatched.of_diameter {d : Int} {p x y : Part} (h : MidWatched d p x) (e : y.diameter = x.diameter) : MidWatched d p y := by
  unfold MidWatched Part.currentDiameter at *
  rw [e]
  exact h

theorem Sampled.of_eq {d : Int} {p x y : Part} (h : Sampled d p x) (distance : y.diameter.distance = x.diameter.distance)
    (samples : y.diameter.samples = x.diameter.samples) : Sampled d p y := by
  unfold Sampled at *
  rw [distance, samples]
  exact h

/-- What a count of the selected source has done when its end sensor's turn comes. -/
theorem beforeSensor_counted (d : Int) (p : Part) : Counted d p (beforeSensor d p) := by
  have e : beforeSensor d p = _ := creepCheck_eq (crossed d p)
  have diameter : (beforeSensor d p).diameter = (crossed d p).diameter := by rw [e]
  have carry : (beforeSensor d p).length.carry.map (·.pos) = (crossed d p).length.carry.map (·.pos) := by
    have k := congrArg (Option.map Prod.fst) (creepCheck_logs (crossed d p)).2
    unfold beforeSensor
    simpa only [Option.map_map, Function.comp_def] using k
  have list : (crossed d p).link = p.link := by rw [crossed_eq]; rfl
  constructor
  case sampled => exact (sampleDue_sampled d p).of_eq (by rw [diameter, crossed_eq]) (by rw [diameter, crossed_eq])
  case mid => exact (crossed_midWatched d p).of_diameter diameter
  case creep => exact beforeSensor_creepWatched d p
  case carryPos =>
    rw [carry, crossed_eq]
    change (p.length.carry.map _).map _ = _
    rw [Option.map_map]
    rfl
  case raised =>
    intro c hc
    rw [show p.raised c = (crossed d p).raised c by rw [Part.raised, Part.raised, list]]
    rcases creepCheck_cases (crossed d p) with k | ⟨i, -, k⟩
    · rw [beforeSensor, k]
    · rw [beforeSensor, k, creptFrom, raised_raise]
      simp [hc.symm]
      rfl
  case list =>
    rw [← list]
    rcases creepCheck_cases (crossed d p) with k | ⟨i, -, k⟩
    · rw [beforeSensor, k]
    · rw [beforeSensor, k]
      exact raise_list _ _
  case short =>
    rw [← list]
    rcases creepCheck_cases (crossed d p) with k | ⟨i, -, k⟩
    · rw [beforeSensor, k]
      omega
    · rw [beforeSensor, k]
      exact raise_list_short _ _
  all_goals rw [e, crossed_eq]
  all_goals rfl

end Sys2Proof.Machine
end

section
namespace Sys2Proof.Machine

/-! ### What happens beside the feed -/

/-- The conditions about which `Beside` says nothing: the slip window's two, and STALL, which no count is compared by. -/
def besideRaises : List Condition := [.slip, .wheelSuspect, .stall]

/-- From `p` to `q` nothing has changed of what a count of the selected source moves, samples, flags and compares. -/
structure Beside (p q : Part) : Prop where
  fed : SameFed p q
  raised : ∀ c, c ∉ besideRaises → q.raised c = p.raised c
  draws : q.draws = p.draws
  mirror : q.length.mirror = p.length.mirror
  endPending : q.length.endPending = p.length.endPending
  endCovered : q.length.endCovered = p.length.endCovered
  distance : q.diameter.distance = p.diameter.distance
  mid : q.diameter.mid = p.diameter.mid
  carry : q.length.carry.map (fun c => (c.pos, c.log.raw, c.log.creep)) = p.length.carry.map (fun c => (c.pos, c.log.raw, c.log.creep))
  history : q.length.history.map (fun h => (h.raw, h.creep)) = p.length.history.map (fun h => (h.raw, h.creep))

protected theorem Beside.rfl (p : Part) : Beside p p :=
  ⟨.rfl p, fun _ _ => rfl, rfl, rfl, rfl, rfl, rfl, rfl, rfl, rfl⟩

theorem Beside.trans {p q t : Part} (h : Beside p q) (k : Beside q t) : Beside p t :=
  ⟨h.fed.trans k.fed, fun c hc => (k.raised c hc).trans (h.raised c hc), k.draws.trans h.draws, k.mirror.trans h.mirror,
    k.endPending.trans h.endPending, k.endCovered.trans h.endCovered, k.distance.trans h.distance, k.mid.trans h.mid,
    k.carry.trans h.carry, k.history.trans h.history⟩

/-- A projection of what two optional values share. -/
theorem map_of_map {α β γ : Type} {f : α → β} {x y : Option α} (h : x.map f = y.map f) (g : β → γ) :
    x.map (fun a => g (f a)) = y.map (fun a => g (f a)) := by
  simpa only [Option.map_map, Function.comp_def] using congrArg (Option.map g) h

theorem Beside.carryPos {p q : Part} (h : Beside p q) : q.length.carry.map (·.pos) = p.length.carry.map (·.pos) :=
  map_of_map h.carry fun x => x.1

theorem Beside.carryRaw {p q : Part} (h : Beside p q) : q.length.carry.map (·.log.raw) = p.length.carry.map (·.log.raw) :=
  map_of_map h.carry fun x => x.2.1

theorem Beside.carryCreep {p q : Part} (h : Beside p q) : q.length.carry.map (·.log.creep) = p.length.carry.map (·.log.creep) :=
  map_of_map h.carry fun x => x.2.2

theorem Beside.historyRaw {p q : Part} (h : Beside p q) : q.length.history.map (·.raw) = p.length.history.map (·.raw) :=
  map_of_map h.history fun x => x.1

theorem Beside.historyCreep {p q : Part} (h : Beside p q) : q.length.history.map (·.creep) = p.length.history.map (·.creep) :=
  map_of_map h.history fun x => x.2

/-- The condition that the hold test may raise for itself. -/
theorem holdTest_raised (p : Part) {c : Condition} (h : c ≠ .stall) :
    (holdTest p).raised c = (p.raised c || (p.holdPasses && decide (.diamReject = c))) := by
  unfold holdTest
  rcases k : p.holdPasses
  · simp
  · have e : (holdComes p).raised c = (raise .diamReject { p with diameter := { p.diameter with hold := true } }).raised c :=
      ((feedHold_works _).raises c).2 (by simpa [feedRaises] using h)
    rw [if_pos rfl, e, raised_raise]
    simp
    rfl

theorem Beside.holdTest {p q : Part} (h : Beside p q) : Beside (holdTest p) (holdTest q) := by
  have fp := holdTest_feedAndHold p
  have fq := holdTest_feedAndHold q
  have dp := (holdTest_feedOnly p).draws
  have dq := (holdTest_feedOnly q).draws
  refine ⟨h.fed.holdTest, fun c hc => ?_, by rw [dq, dp]; exact h.draws, ?_, ?_, ?_, ?_, ?_, ?_, ?_⟩
  · have stall : c ≠ .stall := fun k => hc (by simp [k, besideRaises])
    rw [holdTest_raised _ stall, holdTest_raised _ stall, h.raised c hc, h.fed.holdPasses]
  · rw [show Machine.holdTest q = _ from fq, show Machine.holdTest p = _ from fp]
    exact h.mirror
  · rw [show Machine.holdTest q = _ from fq, show Machine.holdTest p = _ from fp]
    exact h.endPending
  · rw [show Machine.holdTest q = _ from fq, show Machine.holdTest p = _ from fp]
    exact h.endCovered
  · rw [show Machine.holdTest q = _ from fq, show Machine.holdTest p = _ from fp]
    exact h.distance
  · rw [show Machine.holdTest q = _ from fq, show Machine.holdTest p = _ from fp]
    exact h.mid
  · rw [show Machine.holdTest q = _ from fq, show Machine.holdTest p = _ from fp]
    exact h.carry
  · rw [show Machine.holdTest q = _ from fq, show Machine.holdTest p = _ from fp]
    exact h.history

theorem conclude_beside (b : Part) {p : Part} (h : p.boot.resetPending = none ∨ p.link.busOff = false) :
    Beside (holdTest p) (conclude b p) := by
  rw [conclude_eq, resetInBusOff_idle h]
  refine ⟨concludeRest_sameFed b _, fun c _ => ?_, ?_, ?_, ?_, ?_, ?_, ?_, ?_, ?_⟩
  all_goals rw [concludeRest_eq]
  rfl

/-! ### The guidance -/

theorem guidanceTest_idle {p : Part} (h : ¬(p.monitor.profile = .measureOnly ∧ p.hasActive = true
    ∧ p.monitor.guidance.window = true ∧ p.monitor.guidance.announced = false)) : guidanceTest p = p := by
  unfold guidanceTest
  split
  next ident plan i r pos hprof _ hi _ _ =>
    have act : p.hasActive = true := by unfold Part.hasActive; rw [hi]; rfl
    refine if_neg fun k => h ⟨hprof, act, ?_⟩
    simp only [Bool.and_eq_true, Bool.not_eq_true'] at k
    exact k.1
  next => rfl

theorem guidanceTest_lost {p : Part} (h : p.monitor.guidance.last = none ∨ p.logMm = none) : guidanceTest p = p := by
  unfold guidanceTest
  split
  next hl _ _ hp => rcases h with h | h <;> simp_all
  next => rfl

theorem guidanceTest_outside {p : Part} {x : Nat × Planned} {pos : Int} (hl : p.monitor.guidance.last = some x)
    (hp : p.logMm = some pos) (h : x.2.contains pos = false) : guidanceTest p = p := by
  unfold guidanceTest
  split
  next hl' _ _ hp' =>
    obtain rfl := Option.some.inj (hl.symm.trans hl')
    obtain rfl := Option.some.inj (hp.symm.trans hp')
    exact if_neg (by simpa using fun _ _ => h)
  next => rfl

theorem guidanceTest_announces {p : Part} {x : Nat × Planned} {i : Fin 8} {r : Record} {pos : Int}
    (hprof : p.monitor.profile = .measureOnly) (hl : p.monitor.guidance.last = some x) (hi : p.activeSlot = some i)
    (hr : p.recordAt i = some r) (hp : p.logMm = some pos) (hw : p.monitor.guidance.window = true)
    (ha : p.monitor.guidance.announced = false) (hc : x.2.contains pos = true) : guidanceTest p =
      place (.atTarget (p.stemId i) ((indexOf x.1 r.entries).getD 0) r.revision x.2.target x.2.minus x.2.plus pos)
        { p with monitor := { p.monitor with guidance := { p.monitor.guidance with announced := true } } } := by
  unfold guidanceTest
  rw [hprof, hl, hi, activeRecord_of_slot hi, hr, hp]
  exact if_pos (by simp [hw, ha, hc])

theorem guidanceTest_beside (p : Part) : Beside p (guidanceTest p) := by
  unfold guidanceTest
  split
  · split
    · exact ⟨⟨rfl, rfl, rfl, rfl, rfl, rfl, rfl, rfl, rfl, rfl, rfl, rfl⟩, fun _ _ => rfl, rfl, rfl, rfl, rfl, rfl, rfl, rfl, rfl⟩
    · exact .rfl p
  · exact .rfl p

theorem guidanceTravel_beside (before : Option Int) (p : Part) : Beside p (guidanceTravel before p) := by
  unfold guidanceTravel
  split
  · exact .rfl p
  · exact guidanceTest_beside p

theorem guidanceTravel_works (before : Option Int) (p : Part) (cs : List Condition) : Works cs p (guidanceTravel before p) := by
  unfold guidanceTravel
  split
  · exact .rfl _ p
  · exact guidanceTest_works cs p

/-! ### The slip window's close and the seating -/

/-- Marks and slip flags, and what the slip window and the wheel's contact hold, do not touch what a count compares. -/
theorem Beside.of_length {p q : Part} (h : q = { p with length := { p.length with
      history := q.length.history, carry := q.length.carry, slip := q.length.slip, suspect := q.length.suspect
      contact := q.length.contact } })
    (carry : q.length.carry.map (fun c => (c.pos, c.log.raw, c.log.creep)) = p.length.carry.map (fun c => (c.pos, c.log.raw, c.log.creep)))
    (history : q.length.history.map (fun h => (h.raw, h.creep)) = p.length.history.map (fun h => (h.raw, h.creep))) : Beside p q := by
  refine ⟨⟨?_, ?_, ?_, ?_, ?_, ?_, ?_, ?_, ?_, ?_, ?_, ?_⟩, fun c _ => ?_, ?_, ?_, ?_, ?_, ?_, ?_, carry, history⟩
  all_goals rw [h]
  rfl

theorem Beside.of_raise {c : Condition} (h : c ∈ besideRaises) (p : Part) : Beside p (raise c p) :=
  ⟨⟨rfl, rfl, rfl, rfl, rfl, rfl, rfl, rfl, rfl, rfl, rfl, rfl⟩, fun d hd => ((Works.of_raise c p h).raises d).2 hd, rfl, rfl, rfl,
    rfl, rfl, rfl, rfl, rfl⟩

theorem mixed_carry (l : LengthUnit) : l.mixed.carry.map (fun c => (c.pos, c.log.raw, c.log.creep))
    = l.carry.map (fun c => (c.pos, c.log.raw, c.log.creep)) := by
  change (l.carry.map _).map _ = _
  rw [Option.map_map]
  rfl

theorem mixed_history (l : LengthUnit) : l.mixed.history.map (fun h => (h.raw, h.creep)) = l.history.map (fun h => (h.raw, h.creep)) := by
  change (l.history.map _).map _ = _
  rw [Option.map_map]
  rfl

theorem rescale_beside (p q : Part) : Beside q (rescale p q) := by
  refine .of_length (by unfold rescale; dsimp only; split <;> rfl) ?_ ?_
  · unfold rescale
    dsimp only
    split
    · rfl
    · exact mixed_carry _
  · unfold rescale
    dsimp only
    split
    · rfl
    · exact mixed_history _

theorem flagSlip_carry (l : LengthUnit) : l.flagSlip.carry.map (fun c => (c.pos, c.log.raw, c.log.creep))
    = l.carry.map (fun c => (c.pos, c.log.raw, c.log.creep)) := by
  change (l.carry.map _).map _ = _
  rw [Option.map_map]
  rfl

theorem flagSlip_history (l : LengthUnit) :
    l.flagSlip.history.map (fun h => (h.raw, h.creep)) = l.history.map (fun h => (h.raw, h.creep)) := by
  change (l.history.map _).map _ = _
  rw [Option.map_map]
  rfl

/-- The part with its slip window begun anew. -/
def freshWindow (p : Part) : Part := { p with length := { p.length with slip := some { wheel := 0, roller := 0 } } }

/-- The close of a slip window, by the sums it compares (03 R68 to R70). -/
theorem slipClose_some {p : Part} {w : SlipWindow} (h : p.length.slip = some w) : slipClose p =
    if w.wheel < 500000 then p
    else if p.speciesValue (·.slipTol) * 500 < w.roller - w.wheel then
      raise .slip { freshWindow p with length := (freshWindow p).length.flagSlip }
    else if p.speciesValue (·.slipTol) * 500 < w.wheel - w.roller then wheelSuspect (freshWindow p)
    else freshWindow p := by
  unfold slipClose
  rw [h]
  rfl

theorem slipClose_none {p : Part} (h : p.length.slip = none) : slipClose p = p := by
  unfold slipClose
  rw [h]

theorem freshWindow_beside (p : Part) : Beside p (freshWindow p) := .of_length rfl rfl rfl

theorem slipFlagged_beside (p : Part) : Beside p { p with length := p.length.flagSlip } :=
  .of_length rfl (flagSlip_carry _) (flagSlip_history _)

theorem wheelSuspect_beside (p : Part) : Beside p (wheelSuspect p) := by
  have suspect : Beside p { p with length := { p.length with suspect := true } } := .of_length rfl rfl rfl
  exact (suspect.trans (rescale_beside _ _)).trans (.of_raise (by simp [besideRaises]) _)

theorem slipClose_beside (p : Part) : Beside p (slipClose p) := by
  rcases h : p.length.slip with _ | w
  · rw [slipClose_none h]
    exact .rfl p
  rw [slipClose_some h]
  split
  · exact .rfl p
  · split
    · exact ((freshWindow_beside p).trans (slipFlagged_beside _)).trans (.of_raise (by simp [besideRaises]) _)
    · split
      · exact (freshWindow_beside p).trans (wheelSuspect_beside _)
      · exact freshWindow_beside p

/-- What the close of a slip window may raise. -/
def slipRaises : List Condition := [.slip, .wheelSuspect]

theorem slipClose_works (p : Part) : Works slipRaises p (slipClose p) := by
  rcases h : p.length.slip with _ | w
  · rw [slipClose_none h]
    exact .rfl _ p
  rw [slipClose_some h]
  split
  · exact .rfl _ p
  · split
    · exact (Works.of_raise .slip _ (by simp [slipRaises])).after rfl rfl
    · split
      · exact (Works.of_raise .wheelSuspect _ (by simp [slipRaises])).after rfl rfl
      · exact .of_same rfl rfl

theorem seat_seating {p : Part} {x : Nat} (d : Int) (h : p.length.contact = .seating x) : seat d p =
    if 50000 ≤ x + d.natAbs then rescale p { p with length := { p.length with contact := .seated } }
    else { p with length := { p.length with contact := .seating (x + d.natAbs) } } := by
  unfold seat
  rw [h]

theorem seat_idle {p : Part} (d : Int) (h : ∀ x, p.length.contact ≠ .seating x) : seat d p = p := by
  unfold seat
  split
  next x k => exact absurd k (h x)
  all_goals rfl

theorem seat_beside (d : Int) (p : Part) : Beside p (seat d p) := by
  by_cases h : ∃ x, p.length.contact = .seating x
  · obtain ⟨x, h⟩ := h
    rw [seat_seating d h]
    split
    · have seated : Beside p { p with length := { p.length with contact := .seated } } := .of_length rfl rfl rfl
      exact seated.trans (rescale_beside _ _)
    · exact .of_length rfl rfl rfl
  · rw [seat_idle d (by simpa using h)]
    exact .rfl p

theorem seat_works (d : Int) (p : Part) (cs : List Condition) : Works cs p (seat d p) := by
  by_cases h : ∃ x, p.length.contact = .seating x
  · obtain ⟨x, h⟩ := h
    rw [seat_seating d h]
    split
    · exact .of_same rfl rfl
    · exact .of_same rfl rfl
  · rw [seat_idle d (by simpa using h)]
    exact .rfl _ p

end Sys2Proof.Machine
end

section
namespace Sys2Proof.Machine

/-! ### A count whose sensor change does not qualify -/

theorem qualifies_iff {p : Part} {d : Int} : p.qualifies d = true ↔
    ∃ noted, p.length.endPending = some noted ∧ 5000 ≤ (p.length.head + d - noted).natAbs := by
  unfold Part.qualifies
  rcases p.length.endPending with _ | noted <;> simp

/-- Where the pending change does not qualify the end sensor does nothing. -/
theorem Counted.endQualify_short {d : Int} {p y : Part} (c : Counted d p y) (h : p.qualifies d = false) : endQualify y = y := by
  rcases hn : p.length.endPending with _ | noted
  · exact endQualify_none (c.endPending.trans hn)
  · have near : ¬5000 ≤ (p.length.head + d - noted).natAbs := fun k => by
      rw [qualifies_iff.mpr ⟨noted, hn, k⟩] at h
      cases h
    have head := c.head
    exact Machine.endQualify_short (c.endPending.trans hn) (by omega) (by omega)

theorem feedTravelSampled_draws (before : Option Int) (p : Part) :
    (feedTravelSampled before p).draws = p.draws ∨ (feedTravelSampled before p).draws = p.draws + 1 := by
  have travel : ∀ q, (feedTravel before q).draws = q.draws := fun q => (feedTravel_feedOnly before q).draws
  have comes : ∀ q, (holdComes q).draws = q.draws := fun q => (holdComes_feedOnly q).draws
  rcases feedTravelSampled_eq before p with h | ⟨-, -, h | h | h⟩
  · exact .inl (h ▸ travel p)
  · exact .inr (h ▸ travel _)
  · exact .inr (h ▸ (comes _).trans (travel _))
  · exact .inr (h ▸ (travel _).trans (comes _))

theorem fedTravel_draws (before : Option Int) (p : Part) :
    (fedTravel before p).draws = p.draws ∨ (fedTravel before p).draws = p.draws + 1 := by
  rw [show (fedTravel before p).draws = _ from (holdTest_feedOnly _).draws]
  exact feedTravelSampled_draws before p

/-- What all the values of an option share is shared by what maps alike. -/
theorem forall_of_map {α β : Type} {f : α → β} {x y : Option α} {b : β} (h : x.map f = y.map f) (k : ∀ a, y = some a → f a = b) :
    ∀ a, x = some a → f a = b := by
  intro a ha
  rcases y with _ | a'
  · simp [ha] at h
  · rw [ha] at h
    exact (Option.some.inj h).trans (k a' rfl)

theorem FeedAndHold.length {p q : Part} (h : FeedAndHold p q) : q.length = { p.length with creep := q.length.creep } := by rw [h]

theorem FeedAndHold.diameter {p q : Part} (h : FeedAndHold p q) : q.diameter = { p.diameter with hold := q.diameter.hold } := by rw [h]

theorem FeedAndHold.table {p q : Part} (h : FeedAndHold p q) : q.table = p.table := by rw [h]

theorem fedTravel_raised (before : Option Int) (p : Part) {c : Condition} (h : c ∉ fedRaises) :
    (fedTravel before p).raised c = p.raised c := ((fedTravel_works before p).raises c).2 h

theorem creepWatched_fed {d : Int} {p y q : Part} (c : Counted d p y) (k : Beside (fedTravel p.length.logPos y) q) :
    CreepWatched d p q := by
  have ft := fedTravel_feedAndHold p.length.logPos y
  have raised : q.raised .creep = y.raised .creep :=
    (k.raised _ (by simp [besideRaises])).trans (fedTravel_raised _ _ (by simp [fedRaises, travelRaises, feedRaises]))
  have history : q.length.history.map (·.creep) = y.length.history.map (·.creep) := k.historyCreep.trans (by rw [ft.length])
  have carry : q.length.carry.map (·.log.creep) = y.length.carry.map (·.log.creep) := k.carryCreep.trans (by rw [ft.length])
  have interval : q.feed.state = p.feed.state → q.length.creep = y.length.creep := fun h => by
    have goes := (fedTravel_onward p.length.logPos y).goes
    have stays : (fedTravel p.length.logPos y).feed.state = y.watched.feed.state :=
      (congrArg Feed.state k.fed.feed).symm.trans (h.trans (show p.feed.state = y.feed.state by rw [c.feed]))
    obtain ⟨-, creep, -⟩ := goes.resolve_right (by rw [stays]; exact lt_irrefl _)
    exact k.fed.creep.trans creep
  have state : y.feed.state = p.feed.state := by rw [c.feed]
  refine ⟨fun h => ?_, fun i hi => ⟨fun hf far => ?_, fun hk => ?_⟩⟩
  · obtain ⟨h1, h2, h3⟩ := c.creep.1 h
    exact ⟨raised.trans h1, history.trans h2, carry.trans h3⟩
  · obtain ⟨h1, h2, h3, h4⟩ := (c.creep.2 i hi).1 hf far
    exact ⟨raised.trans h1, forall_of_map history h2, forall_of_map carry h3, fun h => (interval h).trans (h4 state)⟩
  · obtain ⟨⟨h1, h2, h3⟩, h4⟩ := (c.creep.2 i hi).2 hk
    exact ⟨⟨raised.trans h1, history.trans h2, carry.trans h3⟩, fun h => (interval h).trans (h4 state)⟩

/-- A count whose sensor change does not qualify, seen once the event is over. -/
theorem travelled_short {d : Int} {p y q : Part} (c : Counted d p y) (h : p.qualifies d = false)
    (k : Beside (fedTravel p.length.logPos y) q) (guidance : GuidanceTested d p q) : Travelled d p q := by
  have ft := fedTravel_feedAndHold p.length.logPos y
  have len := ft.length
  have dia := ft.diameter
  refine ⟨?_, ?_, ⟨fun _ => ⟨?_, ?_⟩, fun h' => ?_, fun h' => ?_, fun _ _ h' => ?_⟩, fun _ => ⟨?_, ?_, ?_, ?_, ?_, ?_,
    creepWatched_fed c k, ?_, guidance⟩⟩
  · rw [k.fed.head, len, ← c.head]
  · rw [k.draws, ← c.draws]
    exact fedTravel_draws _ _
  · rw [k.endPending, len, ← c.endPending]
  · rw [k.endCovered, len, ← c.endCovered]
  · rw [h] at h'
    cases h'
  · rw [h] at h'
    cases h'
  · rw [h] at h'
    cases h'
  · rw [k.fed.logPos, len, ← c.logPos]
  · rw [k.fed.table, ft.table, c.table]
  · rw [k.mirror, len, ← c.mirror]
  · rw [k.carryPos, len, ← c.carryPos]
  · exact c.sampled.of_eq (by rw [k.distance, dia]) (by rw [k.fed.samples, dia])
  · have mid := c.mid
    unfold MidWatched Part.currentDiameter at *
    rw [k.mid, k.fed.samples, dia]
    exact mid
  · exact (fed_compared c rfl).seen k.fed (k.raised _ (by simp [besideRaises])) (k.raised _ (by simp [besideRaises]))

/-! ### A count whose sensor change qualifies -/

theorem recordAt_of_table {p q : Part} (h : q.table = p.table) (i : Fin 8) : q.recordAt i = p.recordAt i := by
  unfold Part.recordAt
  rw [h]

theorem activeSlot_of_table {p q : Part} (h : q.table = p.table) : q.activeSlot = p.activeSlot :=
  activeSlot_congr fun i => isActive_congr (recordAt_of_table h i)

theorem boundTo_of_table {p q : Part} (h : q.table = p.table) (i : Fin 8) : q.boundTo i = p.boundTo i := by
  unfold Part.boundTo
  rw [h]

theorem topWaits_of_table {p q : Part} (h : q.table = p.table) (i : Fin 8) (r : Record) (x : Int) :
    q.topWaits i r x = p.topWaits i r x := by
  unfold Part.topWaits
  rw [boundTo_of_table h]

/-- Neither a reference nor a top report touches the end sensor's level. -/
theorem topReport_sensor (x : Int) (p : Part) :
    (topReport x p).length.endPending = p.length.endPending ∧ (topReport x p).length.endCovered = p.length.endCovered := by
  have finish : ∀ i r, (finishTop i r x p).length.endPending = p.length.endPending
      ∧ (finishTop i r x p).length.endCovered = p.length.endCovered := fun i r => by
    unfold finishTop
    rw [endPeriod_eq, (feedEnd_feedOnly _)]
    exact ⟨rfl, rfl⟩
  unfold topReport
  split
  · split
    · exact ⟨rfl, rfl⟩
    · split
      · exact ⟨rfl, rfl⟩
      · exact finish _ _
  · exact ⟨rfl, rfl⟩

theorem reportTop_sensor (p : Part) :
    (reportTop p).length.endPending = p.length.endPending ∧ (reportTop p).length.endCovered = p.length.endCovered := by
  unfold reportTop
  split
  · split
    · exact topReport_sensor _ p
    · exact ⟨rfl, rfl⟩
  · exact ⟨rfl, rfl⟩

theorem referenceStem_sensor (p : Part) :
    (referenceStem p).length.endPending = p.length.endPending ∧ (referenceStem p).length.endCovered = p.length.endCovered := by
  unfold referenceStem
  split
  · split
    · rw [(referenceReport_handed _).length]
      exact ⟨rfl, rfl⟩
    · exact ⟨rfl, rfl⟩
  · exact ⟨rfl, rfl⟩

/-- A change that has qualified is pending no more, and the level is taken. -/
theorem endQualify_sensor {p : Part} {noted : Int} (h : p.length.endPending = some noted)
    (hq : 5000 ≤ p.length.head - noted ∨ p.length.head - noted ≤ -5000) :
    (endQualify p).length.endPending = none ∧ (endQualify p).length.endCovered = !p.length.endCovered := by
  rcases hc : p.length.endCovered
  · rw [endQualify_covers h hc hq]
    exact ⟨rfl, by simp [qualified, hc]⟩
  · rcases hq with hq | hq
    · rw [endQualify_forward h hc hq]
      exact ⟨(reportTop_sensor _).1, (reportTop_sensor _).2.trans (by simp [qualified, hc])⟩
    · rw [endQualify_reverse h hc hq]
      exact ⟨(referenceStem_sensor _).1, (referenceStem_sensor _).2.trans (by simp [qualified, hc])⟩

theorem topReport_others {p : Part} {i : Fin 8} {r : Record} (x : Int) (hi : p.activeSlot = some i) (hr : p.recordAt i = some r) :
    OtherSlotsKept p (topReport x p) i := by
  by_cases hs : r.topSeen = true
  · unfold topReport
    rw [hi, activeRecord_of_slot hi, hr]
    dsimp only
    rw [if_pos hs]
    exact .rfl p i
  · rcases hw : p.topWaits i r x
    · rw [topReport_finishes hi hr (by simpa using hs) hw]
      exact (written_table (finishTop_spec i r x p).1).2.1
    · rw [topReport_waits hi hr (by simpa using hs) hw]
      exact setRecord_others p i _

theorem topReport_seen {p : Part} {i : Fin 8} {r : Record} (x : Int) (hi : p.activeSlot = some i) (hr : p.recordAt i = some r)
    (hs : r.topSeen = true) : topReport x p = p := by
  unfold topReport
  rw [hi, activeRecord_of_slot hi, hr]
  exact if_pos hs

theorem reportTop_others {p : Part} {i : Fin 8} {r : Record} (hi : p.activeSlot = some i) (hr : p.recordAt i = some r) :
    OtherSlotsKept p (reportTop p) i := by
  unfold reportTop
  split
  · split
    · exact topReport_others _ hi hr
    · exact .rfl p i
  · exact .rfl p i

theorem reportTop_idle {p : Part} {i : Fin 8} {r : Record} (hi : p.activeSlot = some i) (hr : p.recordAt i = some r)
    (h : r.reference = .none ∨ r.topSeen = true ∨ p.length.logPos = none) : reportTop p = p := by
  unfold reportTop
  split
  next pos hp =>
    split
    next href =>
      rcases h with h | h | h
      · unfold Part.referenced at href
        rw [activeRecord_of_slot hi, hr] at href
        exact absurd h ((established_eq r).mp href)
      · exact topReport_seen _ hi hr h
      · unfold Part.logMm at hp
        rw [h] at hp
        cases hp
    next => rfl
  next => rfl

theorem referenceStem_others {p : Part} {i : Fin 8} {r : Record} (hi : p.activeSlot = some i) (hr : p.recordAt i = some r) :
    OtherSlotsKept p (referenceStem p) i := by
  by_cases h : p.length.mirror = false ∧ (p.monitor.profile ≠ .fellProcess ∨ r.felled = true) ∧ p.boundTo i = false
  · rw [referenceStem_allowed hi hr h]
    exact referenceReport_others (p := referencedUnits p) hi hr
  · rw [referenceStem_barred hi hr h]
    exact .rfl p i

/-- A count at the feed and what happens beside it show an arming occasion as it was met. -/
theorem fed_armingSeen (i : Fin 8) {before : Option Int} {z q : Part} (k : Beside (fedTravel before z) q) : ArmingSeen i z q := by
  have ft := fedTravel_feedAndHold before z
  have goes := fedTravel_onward before z
  have raised : ∀ c, c ∉ besideRaises → c ∉ fedRaises → q.raised c = z.raised c := fun c h1 h2 =>
    (k.raised c h1).trans (fedTravel_raised _ _ h2)
  refine ⟨recordAt_of_table (k.fed.table.trans ft.table) i, ?_, ?_, ?_, ?_, ?_⟩
  · rw [k.fed.feed]
    exact goes.held
  · rw [k.fed.feed]
    exact goes.corrections
  · rw [k.fed.entry, ft.diameter]
  · exact raised _ (by simp [besideRaises]) (by simp [fedRaises, travelRaises, feedRaises])
  · exact raised _ (by simp [besideRaises]) (by simp [fedRaises, travelRaises, feedRaises])

end Sys2Proof.Machine
end

section
namespace Sys2Proof.Machine

/-! ### The end sensor in a count -/

/-- From `z`, as the end sensor leaves it, to `q` the feed's part of the count and the end of the event show the same of it. -/
structure SensorSeen (z q : Part) : Prop where
  table : q.table = z.table
  logPos : q.length.logPos = z.length.logPos
  mirror : q.length.mirror = z.length.mirror
  endPending : q.length.endPending = z.length.endPending
  endCovered : q.length.endCovered = z.length.endCovered
  raw : q.length.history.map (·.raw) = z.length.history.map (·.raw)
  idle : z.feed.state = .idle → q.feed = z.feed
  arming : ∀ i, ArmingSeen i z q

theorem fed_sensorSeen {before : Option Int} {z q : Part} (k : Beside (fedTravel before z) q) : SensorSeen z q where
  table := k.fed.table.trans (fedTravel_feedAndHold before z).table
  logPos := by rw [k.fed.logPos, (fedTravel_feedAndHold before z).length]
  mirror := by rw [k.mirror, (fedTravel_feedAndHold before z).length]
  endPending := by rw [k.endPending, (fedTravel_feedAndHold before z).length]
  endCovered := by rw [k.endCovered, (fedTravel_feedAndHold before z).length]
  raw := by rw [k.historyRaw, (fedTravel_feedAndHold before z).length]
  idle h := by
    have still : z.feed.state.motion = false := by rw [h]; rfl
    have off : ¬z.feeds := by simp [Part.feeds, h]
    rw [k.fed.feed, fedTravel_still off (by rwa [feedTravel_still before still]), feedTravel_still before still]
  arming i := fed_armingSeen i k

/-- A stem that the end sensor may reference in a count in reverse (R74). -/
theorem sensed_reverse {d noted : Int} {p y q : Part} {i : Fin 8} {r : Record} (c : Counted d p y)
    (k : SensorSeen (endQualify y) q) (hn : p.length.endPending = some noted) (hc : p.length.endCovered = true)
    (hq : p.length.head + d - noted ≤ -5000) (hi : p.activeSlot = some i) (hr : p.recordAt i = some r) :
    let allowed : Prop := p.length.mirror = false ∧ (p.monitor.profile ≠ .fellProcess ∨ r.felled = true) ∧ p.boundTo i = false
    (allowed → q.length.logPos = some (-(p.endOffset * 1000)) ∧ q.length.mirror = true
        ∧ q.length.history.map (·.raw) = some (-(p.endOffset * 1000))
        ∧ (r.reference = .none → ArmingMet i { r with reference := .endSensed } p q))
      ∧ (¬allowed → q.table = p.table ∧ q.length.logPos = p.movedPos d) := by
  intro allowed
  have hi' : (qualified y).activeSlot = some i := (activeSlot_of_table c.table).trans hi
  have hr' : (qualified y).recordAt i = some r := (recordAt_of_table c.table i).trans hr
  have e := endQualify_reverse (c.endPending.trans hn) (c.endCovered.trans hc) (by rw [c.head]; exact hq)
  have offset : (qualified y).endOffset = p.endOffset := c.setting 4
  have same : ((qualified y).length.mirror = false ∧ ((qualified y).monitor.profile ≠ .fellProcess ∨ r.felled = true)
      ∧ (qualified y).boundTo i = false) ↔ allowed := by
    rw [show (qualified y).length.mirror = p.length.mirror from c.mirror,
      show (qualified y).monitor.profile = p.monitor.profile from congrArg Monitor.profile c.monitor,
      show (qualified y).boundTo i = p.boundTo i from boundTo_of_table (p := p) (q := qualified y) c.table i]
  refine ⟨fun h => ?_, fun h => ?_⟩
  · rw [referenceStem_allowed hi' hr' (same.mpr h)] at e
    have len := (referenceReport_handed (referencedUnits (qualified y))).length
    rw [k.logPos, k.mirror, k.raw, e, len, ← offset]
    refine ⟨rfl, rfl, rfl, fun href => ?_⟩
    rw [referenceReport_establishes (p := referencedUnits (qualified y)) hi' hr' href] at e
    refine ArmingMet.seen ?_ (e ▸ k.arming i)
    refine (established_met (recordAt_setRecord_self (referencedUnits (qualified y)) i _)).begun ?_ ?_ ?_ ?_ ?_ ?_
    · exact c.store.symm
    · exact congrArg Feed.held c.feed
    · exact congrArg Feed.corrections c.feed
    · exact c.entry
    · exact c.raised _ (by simp)
    · exact c.raised _ (by simp)
  · rw [referenceStem_barred hi' hr' fun h' => h (same.mp h')] at e
    rw [k.table, k.logPos, e]
    exact ⟨c.table, c.logPos⟩

/-- A top that the end sensor may report in a count forward (R75, 01 R19). -/
theorem sensed_forward {d noted : Int} {p y q : Part} {i : Fin 8} {r : Record} (c : Counted d p y)
    (k : SensorSeen (endQualify y) q) (hn : p.length.endPending = some noted) (hc : p.length.endCovered = true)
    (hq : 5000 ≤ p.length.head + d - noted) (hi : p.activeSlot = some i) (hr : p.recordAt i = some r) :
    (r.reference = .none ∨ r.topSeen = true ∨ p.length.logPos = none → q.table = p.table ∧ q.length.logPos = p.movedPos d)
      ∧ ∀ pos, r.reference ≠ .none → r.topSeen = false → p.movedMm d = some pos →
        let left := pos + p.endOffset
        (p.topWaits i r left = true →
            q.recordAt i = some { r with topSeen := true, held := some left } ∧ q.length.logPos = p.movedPos d)
          ∧ (p.topWaits i r left = false →
            q.recordAt i = some { r with
                state := .finished, entries := r.entries.map skipEntry, held := none, topSeen := true, topRemnant := some left }
              ∧ q.feed.value = .idle ∧ q.feed.state = .idle ∧ q.length.logPos = none) := by
  have hi' : (qualified y).activeSlot = some i := (activeSlot_of_table c.table).trans hi
  have hr' : (qualified y).recordAt i = some r := (recordAt_of_table c.table i).trans hr
  have e := endQualify_forward (c.endPending.trans hn) (c.endCovered.trans hc) (by rw [c.head]; exact hq)
  have offset : (qualified y).endOffset = p.endOffset := c.setting 4
  have waits : ∀ x, (qualified y).topWaits i r x = p.topWaits i r x :=
    topWaits_of_table (p := p) (q := qualified y) c.table i r
  refine ⟨fun h => ?_, fun pos href hs hp => ?_⟩
  · have idle : reportTop (qualified y) = qualified y := reportTop_idle hi' hr' (h.imp_right (.imp_right fun h => by
      refine c.logPos.trans ?_
      rw [Part.movedPos, h]
      rfl))
    rw [k.table, k.logPos, e, idle]
    exact ⟨c.table, c.logPos⟩
  · have mm : (qualified y).logMm = some pos := c.logMm.trans hp
    rw [reportTop_reports hi' hr' href mm, offset] at e
    refine ⟨fun hw => ?_, fun hw => ?_⟩
    · rw [topReport_waits hi' hr' hs ((waits _).trans hw)] at e
      rw [recordAt_of_table k.table, k.logPos, e]
      exact ⟨recordAt_setRecord_self _ i _, c.logPos⟩
    · rw [topReport_finishes hi' hr' hs ((waits _).trans hw)] at e
      obtain ⟨ht, hv, hst, -, -⟩ := finishTop_spec i r (pos + p.endOffset) (qualified y)
      obtain ⟨trec, -⟩ := written_table ht
      rw [recordAt_of_table k.table, k.logPos, k.idle (by rw [e, hst]), e]
      refine ⟨trec, hv, hst, ?_⟩
      unfold finishTop
      rw [endPeriod_eq, (feedEnd_feedOnly _).logPos]
      rfl

/-- What the end sensor has seen of a count whose change qualifies. -/
theorem endSensed_qualified {d : Int} {p y q : Part} (c : Counted d p y) (h : p.qualifies d = true)
    (k : SensorSeen (endQualify y) q) : EndSensed d p q := by
  obtain ⟨noted, hn, hq⟩ := qualifies_iff.mp h
  have head := c.head
  have hq' : 5000 ≤ y.length.head - noted ∨ y.length.head - noted ≤ -5000 := by omega
  obtain ⟨pending, covered⟩ := endQualify_sensor (c.endPending.trans hn) hq'
  refine ⟨fun h' => ?_, fun _ => ⟨k.endPending.trans pending, ?_⟩, fun _ hc => ?_, fun noted' hn' _ hc i r hi hr => ?_⟩
  · rw [h] at h'
    cases h'
  · rw [k.endCovered, covered, c.endCovered]
  · have e := endQualify_covers (c.endPending.trans hn) (c.endCovered.trans hc) hq'
    rw [k.table, k.logPos, e]
    exact ⟨c.table, c.logPos⟩
  · obtain rfl := Option.some.inj (hn.symm.trans hn')
    have hi' : (qualified y).activeSlot = some i := (activeSlot_of_table c.table).trans hi
    have hr' : (qualified y).recordAt i = some r := (recordAt_of_table c.table i).trans hr
    have start : OtherSlotsKept p (qualified y) i := .of_table i c.table
    refine ⟨?_, fun back => ?_, fun ahead => ?_⟩
    · refine OtherSlotsKept.trans ?_ (.of_table i k.table)
      rcases hq' with hq' | hq'
      · rw [endQualify_forward (c.endPending.trans hn) (c.endCovered.trans hc) hq']
        exact start.trans (reportTop_others hi' hr')
      · rw [endQualify_reverse (c.endPending.trans hn) (c.endCovered.trans hc) hq']
        exact start.trans (referenceStem_others hi' hr')
    · exact sensed_reverse c k hn hc (by omega) hi hr
    · exact sensed_forward c k hn hc (by omega) hi hr

/-- A count whose sensor change qualifies, seen once the event is over. -/
theorem travelled_qualified {d : Int} {p y q : Part} (c : Counted d p y) (h : p.qualifies d = true)
    (k : Beside (fedTravel p.length.logPos (endQualify y)) q) (head : (endQualify y).length.head = y.length.head)
    (draws : (endQualify y).draws = y.draws) : Travelled d p q := by
  refine ⟨?_, ?_, endSensed_qualified c h (fed_sensorSeen k), fun h' => ?_⟩
  · rw [k.fed.head, (fedTravel_feedAndHold _ _).length, ← c.head, ← head]
  · rw [k.draws, ← c.draws, ← draws]
    exact fedTravel_draws _ _
  · rw [h] at h'
    cases h'

end Sys2Proof.Machine
end

section
namespace Sys2Proof.Machine

/-! ### The guidance in a count -/

theorem stemId_of_table {p q : Part} (h : q.table = p.table) (i : Fin 8) : q.stemId i = p.stemId i := by
  unfold Part.stemId
  rw [h]

theorem feedTravelSampled_still (before : Option Int) {p : Part} (h : p.feed.state.motion = false) :
    feedTravelSampled before p = p := by
  have off : ¬p.feeds := by
    rintro (k | k) <;> simp [k, FeedState.motion, FeedState.heading] at h
  unfold feedTravelSampled
  rw [if_neg (by simp [holdPasses_of_still off]), feedTravel_still before h]

/-- In MEASURE_ONLY the part moves no feed. -/
theorem MotionGuarded.still {p : Part} (h : MotionGuarded p) (hp : p.monitor.profile = .measureOnly) : p.feed.state.motion = false := by
  by_contra k
  have works := (h.1 (.inl (by simpa using k))).2.2.1
  rw [hp] at works
  cases works

theorem guidance_tested {d : Int} {p y q : Part} (c : Counted d p y) (guarded : MotionGuarded p)
    (guidance : q.monitor.guidance = (guidanceTravel p.length.logPos (feedTravelSampled p.length.logPos y)).monitor.guidance)
    (list : p.link.busOff = false → ∀ l,
      l <+: (guidanceTravel p.length.logPos (feedTravelSampled p.length.logPos y)).link.sendList → l.length ≤ 16 → l <+: q.link.sendList) :
    GuidanceTested d p q := by
  set z := feedTravelSampled p.length.logPos y with hz
  have ft : FeedAndHold y z := feedTravelSampled_feedAndHold _ y
  have table : z.table = p.table := ft.table.trans c.table
  have monitor : z.monitor = p.monitor := (FeedOnly.monitor ft).trans c.monitor
  have pos : z.length.logPos = p.movedPos d := (FeedOnly.logPos ft).trans c.logPos
  have mm : z.logMm = p.movedMm d := by
    unfold Part.logMm Part.movedMm
    rw [pos]
  have active : z.activeSlot = p.activeSlot := activeSlot_of_table table
  have unmoved : p.movedPos d = p.length.logPos → guidanceTravel p.length.logPos z = z := fun h => if_pos (pos.trans h)
  have moved : p.movedPos d ≠ p.length.logPos → guidanceTravel p.length.logPos z = guidanceTest z := fun h =>
    if_neg fun k => h (pos.symm.trans k)
  have same : guidanceTest z = z → q.monitor.guidance = p.monitor.guidance := fun h => by
    have e : guidanceTravel p.length.logPos z = z := by
      by_cases k : p.movedPos d = p.length.logPos
      · exact unmoved k
      · exact (moved k).trans h
    rw [guidance, e, monitor]
  refine ⟨fun h => ?_, fun h => same (guidanceTest_lost (by rw [monitor, mm]; exact h)), fun x at_ hl hp => ⟨fun due lo hi => ?_, fun h => ?_⟩⟩
  · by_cases k : p.movedPos d = p.length.logPos
    · rw [guidance, unmoved k, monitor]
    · refine same (guidanceTest_idle ?_)
      unfold Part.hasActive
      rw [monitor, active]
      exact fun ⟨h1, h2, h3, h4⟩ => h ⟨h1, h2, h3, h4, k⟩
  · obtain ⟨hprof, hact, hw, ha, hm⟩ := due
    obtain ⟨i, hi'⟩ := Option.isSome_iff_exists.mp (show p.activeSlot.isSome = true from hact)
    obtain ⟨r, hr, -⟩ := (isActive_iff p i).mp (activeSlot_isActive hi')
    have inside : x.2.contains at_ = true := by simp [Planned.contains, lo, hi]
    have e := guidanceTest_announces (p := z) (x := x) (pos := at_) (by rw [monitor]; exact hprof) (by rw [monitor]; exact hl)
      (active.trans hi') ((recordAt_of_table table i).trans hr) (mm.trans hp) (by rw [monitor]; exact hw)
      (by rw [monitor]; exact ha) inside
    rw [← moved hm, stemId_of_table table] at e
    refine ⟨by rw [guidance, e]; rw [monitor]; rfl, fun hoff hshort i' r' hi'' hr'' => ?_⟩
    obtain rfl := Option.some.inj (hi'.symm.trans hi'')
    obtain rfl := Option.some.inj (hr.symm.trans hr'')
    have still : z = y := feedTravelSampled_still _ (by rw [c.feed]; exact guarded.still hprof)
    have short := c.short
    refine (list hoff _ (List.prefix_refl _) ?_).subset ?_
    · rw [e, still]
      change (y.link.sendList ++ [_]).length ≤ 16
      simp
      omega
    · rw [e]
      exact List.mem_append_right _ (List.mem_singleton_self _)
  · refine same (guidanceTest_outside (by rw [monitor]; exact hl) (mm.trans hp) ?_)
    unfold Planned.contains
    rcases h with h | h
    · simp [show ¬(x.2.target - x.2.minus ≤ at_) by omega]
    · simp [show ¬(at_ ≤ x.2.target + x.2.plus) by omega]

end Sys2Proof.Machine
end

section
namespace Sys2Proof.Machine

/-! ### What the end sensor can come to -/

/-- The six things that the end-sensor qualifier can come to. -/
inductive SensorOutcome (p : Part) : Part → Prop
  | short : SensorOutcome p p
  | taken : SensorOutcome p (qualified p)
  | finished (i : Fin 8) (r : Record) (x : Int) : SensorOutcome p (finishTop i r x (qualified p))
  | waits (i : Fin 8) (r : Record) (x : Int) (hi : p.activeSlot = some i) (hr : p.recordAt i = some r) :
      SensorOutcome p ((qualified p).setRecord i (some { r with topSeen := true, held := some x }))
  | begun : SensorOutcome p (referencedUnits (qualified p))
  | established (i : Fin 8) (r : Record) (hi : p.activeSlot = some i) (hr : p.recordAt i = some r) :
      SensorOutcome p (Machine.established i
        ((referencedUnits (qualified p)).setRecord i (some { r with reference := .endSensed })))

theorem reportTop_outcome (p : Part) : SensorOutcome p (reportTop (qualified p)) := by
  unfold reportTop
  split
  · split
    · unfold topReport
      split
      next i r hi hr =>
        have hr' : p.recordAt i = some r := (activeRecord_of_slot (p := qualified p) hi).symm.trans hr
        split
        · exact .taken
        · split
          · exact .waits i r _ hi hr'
          · exact .finished i r _
      next => exact .taken
    · exact .taken
  · exact .taken

theorem referenceStem_outcome (p : Part) : SensorOutcome p (referenceStem (qualified p)) := by
  rcases hi : p.activeSlot with _ | i
  · unfold referenceStem
    rw [show (qualified p).activeSlot = none from hi]
    exact .taken
  obtain ⟨r, hr, -⟩ := (isActive_iff p i).mp (activeSlot_isActive hi)
  by_cases h : (qualified p).length.mirror = false ∧ ((qualified p).monitor.profile ≠ .fellProcess ∨ r.felled = true)
      ∧ (qualified p).boundTo i = false
  · rw [referenceStem_allowed (p := qualified p) hi hr h]
    by_cases href : r.reference = .none
    · rw [referenceReport_establishes (p := referencedUnits (qualified p)) hi hr href]
      exact .established i r hi hr
    · rw [referenceReport_idle (p := referencedUnits (qualified p)) hi hr href]
      exact .begun
  · rw [referenceStem_barred (p := qualified p) hi hr h]
    exact .taken

theorem endQualify_outcome (p : Part) : SensorOutcome p (endQualify p) := by
  rcases hn : p.length.endPending with _ | noted
  · rw [endQualify_none hn]
    exact .short
  by_cases hq : 5000 ≤ p.length.head - noted ∨ p.length.head - noted ≤ -5000
  · rcases hc : p.length.endCovered
    · rw [endQualify_covers hn hc hq]
      exact .taken
    · rcases hq with hq | hq
      · rw [endQualify_forward hn hc hq]
        exact reportTop_outcome p
      · rw [endQualify_reverse hn hc hq]
        exact referenceStem_outcome p
  · rw [endQualify_short hn (by omega) (by omega)]
    exact .short

/-- From `p` to `q` the encoders, the wheel's contact and the saw are as they were. -/
structure GaugesKept (p q : Part) : Prop where
  wheel : q.length.wheel = p.length.wheel
  roller : q.length.roller = p.length.roller
  contact : q.length.contact = p.length.contact
  saw : q.saw = p.saw

theorem GaugesKept.trans {p q t : Part} (h : GaugesKept p q) (k : GaugesKept q t) : GaugesKept p t :=
  ⟨k.wheel.trans h.wheel, k.roller.trans h.roller, k.contact.trans h.contact, k.saw.trans h.saw⟩

/-- The same as `trans`, with the later work named first. -/
theorem GaugesKept.since {p q t : Part} (k : GaugesKept q t) (h : GaugesKept p q) : GaugesKept p t := h.trans k

protected theorem GaugesKept.rfl (p : Part) : GaugesKept p p := ⟨rfl, rfl, rfl, rfl⟩

theorem Handed.gauges {p q : Part} (h : Handed p q) : GaugesKept p q :=
  ⟨by rw [h.length], by rw [h.length], by rw [h.length], by rw [show q = _ from h]⟩

theorem FeedAndHold.gauges {p q : Part} (h : FeedAndHold p q) : GaugesKept p q :=
  ⟨by rw [h.length], by rw [h.length], by rw [h.length], by rw [h]⟩

theorem finishTop_units (i : Fin 8) (r : Record) (x : Int) (p : Part) :
    (finishTop i r x p).length = { p.length.endPeriod with creep := (finishTop i r x p).length.creep }
      ∧ (finishTop i r x p).saw = p.saw := by
  have ended : ∀ q : Part, (feedEnd q).length = { q.length with creep := (feedEnd q).length.creep } := fun q =>
    (feedEnd_feedOnly q).feedAndHold.length
  exact ⟨ended (endedUnits (place (.stemState (p.stemId i) .finished .top r.dropCount (some x)) (p.setRecord i (some (r.finishTop x))))),
    (feedEnd_feedOnly _).saw⟩

theorem SensorOutcome.gauges {p z : Part} (h : SensorOutcome p z) : GaugesKept p z := by
  cases h with
  | short => exact .rfl p
  | taken => exact ⟨rfl, rfl, rfl, rfl⟩
  | finished i r x =>
    obtain ⟨hl, hs⟩ := finishTop_units i r x (qualified p)
    exact ⟨by rw [hl]; rfl, by rw [hl]; rfl, by rw [hl]; rfl, hs⟩
  | waits i r x hi hr => exact ⟨rfl, rfl, rfl, rfl⟩
  | begun => exact ⟨rfl, rfl, rfl, rfl⟩
  | established i r hi hr => exact (established_handed i _).gauges.since ⟨rfl, rfl, rfl, rfl⟩

theorem SensorOutcome.head {p z : Part} (h : SensorOutcome p z) : z.length.head = p.length.head := by
  cases h with
  | short | taken | waits | begun => rfl
  | finished i r x => rw [(finishTop_units i r x _).1]; rfl
  | established i r hi hr => rw [(established_handed i _).length]; rfl

theorem SensorOutcome.works {p z : Part} (h : SensorOutcome p z) : Works armRaises p z := by
  cases h with
  | short => exact .rfl _ p
  | taken => exact .of_same rfl rfl
  | finished i r x => exact ((finishTop_works i r x _).mono feedRaises_sub_armRaises).after rfl rfl
  | waits i r x hi hr => exact .of_same rfl rfl
  | begun => exact .of_same rfl rfl
  | established i r hi hr => exact (established_works i _).after rfl rfl

/-! ### The slip window in a count -/

/-- From `p` to `q` the slip window and what decides over it stand. -/
structure SlipStands (p q : Part) : Prop where
  slip : q.length.slip = p.length.slip
  suspect : q.length.suspect = p.length.suspect
  species : ∀ f, q.speciesValue f = p.speciesValue f
  active : q.hasActive = p.hasActive

protected theorem SlipStands.rfl (p : Part) : SlipStands p p := ⟨rfl, rfl, fun _ => rfl, rfl⟩

theorem SlipStands.trans {p q t : Part} (h : SlipStands p q) (k : SlipStands q t) : SlipStands p t :=
  ⟨k.slip.trans h.slip, k.suspect.trans h.suspect, fun f => (k.species f).trans (h.species f), k.active.trans h.active⟩

theorem SlipStands.of_table {p q : Part} (slip : q.length.slip = p.length.slip) (suspect : q.length.suspect = p.length.suspect)
    (table : q.table = p.table) (store : q.store = p.store) : SlipStands p q :=
  ⟨slip, suspect, speciesValue_congr table store, by unfold Part.hasActive; rw [activeSlot_of_table table]⟩

/-- The ACTIVE record written again as one that is ACTIVE and of the same species. -/
theorem SlipStands.of_written {p q : Part} {i : Fin 8} {r r' : Record} (slip : q.length.slip = p.length.slip)
    (suspect : q.length.suspect = p.length.suspect) (store : q.store = p.store) (hi : p.activeSlot = some i)
    (hr : p.recordAt i = some r) (others : OtherSlotsKept p q i) (hq : q.recordAt i = some r') (state : r'.state = r.state)
    (species : r'.species = r.species) : SlipStands p q := by
  have act : ∀ j, q.isActive j = p.isActive j := fun j => by
    by_cases hj : j = i
    · subst hj
      unfold Part.isActive
      rw [hq, hr]
      simp [state]
    · exact others.isActive hj
  have slot : q.activeSlot = some i := (activeSlot_congr act).trans hi
  refine ⟨slip, suspect, fun f => ?_, by unfold Part.hasActive; rw [slot, hi]⟩
  unfold Part.speciesValue Part.inUse
  rw [activeRecord_of_slot slot, activeRecord_of_slot hi, hq, hr, store]
  simp [species]

theorem armingTest_stays (p : Part) (r : Record) :
    (p.armingTest r).1.state = r.state ∧ (p.armingTest r).1.species = r.species := by
  unfold Part.armingTest
  repeat' split
  all_goals exact ⟨rfl, rfl⟩

/-- Past the end sensor the slip window stands, or the period is over: the window is closed and the feed IDLE. -/
theorem SensorOutcome.slip {p z : Part} (h : SensorOutcome p z) :
    SlipStands p z ∨ (z.feed.state = .idle ∧ z.length.slip = none) := by
  cases h with
  | short => exact .inl (.rfl p)
  | taken => exact .inl (.of_table rfl rfl rfl rfl)
  | finished i r x => exact .inr ⟨(finishTop_spec i r x _).2.2.1, by rw [(finishTop_units i r x _).1]; rfl⟩
  | waits i r x hi hr =>
    exact .inl (.of_written rfl rfl rfl hi hr (setRecord_others (qualified p) i _) (recordAt_setRecord_self _ i _) rfl rfl)
  | begun => exact .inl (.of_table rfl rfl rfl rfl)
  | established i r hi hr =>
    have handed := established_handed i ((referencedUnits (qualified p)).setRecord i (some { r with reference := .endSensed }))
    have others := (setRecord_others (referencedUnits (qualified p)) i (some { r with reference := .endSensed })).trans
      (established_others i _)
    have written : (feedReferenced ((referencedUnits (qualified p)).setRecord i (some { r with reference := .endSensed }))).recordAt i
        = some { r with reference := .endSensed } :=
      (feedReferenced_seen i _).record.trans (recordAt_setRecord_self _ i _)
    obtain ⟨hst, hsp⟩ := armingTest_stays
      (feedReferenced ((referencedUnits (qualified p)).setRecord i (some { r with reference := .endSensed })))
      { r with reference := .endSensed }
    exact .inl (.of_written (by rw [handed.length]; rfl) (by rw [handed.length]; rfl) (by rw [show Machine.established i _ = _ from handed]; rfl) hi hr
      others (arm_recordAt written) hst hsp)

theorem FeedAndHold.slipStands {p q : Part} (h : FeedAndHold p q) : SlipStands p q :=
  .of_table (by rw [h.length]) (by rw [h.length]) h.table (by rw [h])

/-! ### The whole travel of a count -/

theorem guidanceTravel_length (before : Option Int) (p : Part) : (guidanceTravel before p).length = p.length := by
  unfold guidanceTravel
  split
  · rfl
  · exact guidanceTest_length p

theorem beforeSensor_units (d : Int) (p : Part) : (beforeSensor d p).length = { p.length with
    head := p.length.head + d, logPos := p.movedPos d, history := (beforeSensor d p).length.history
    carry := (beforeSensor d p).length.carry, creep := (beforeSensor d p).length.creep } := by
  have e : beforeSensor d p = _ := creepCheck_eq (crossed d p)
  rw [e, crossed_eq]
  rfl

theorem selectedTravel_gauges (d : Int) (p : Part) : GaugesKept p (selectedTravel d p) := by
  have c := beforeSensor_counted d p
  have start : GaugesKept p (beforeSensor d p) :=
    ⟨by rw [beforeSensor_units], by rw [beforeSensor_units], by rw [beforeSensor_units], c.saw⟩
  have fed := (endQualify_outcome (beforeSensor d p)).gauges.trans (feedTravelSampled_feedAndHold p.length.logPos _).gauges
  have guided : ∀ q, GaugesKept q (guidanceTravel p.length.logPos q) := fun q =>
    ⟨by rw [guidanceTravel_length], by rw [guidanceTravel_length], by rw [guidanceTravel_length],
      (guidanceTravel_beside _ q).fed.saw⟩
  rw [selectedTravel_eq]
  exact (start.trans fed).trans (guided _)

theorem guidanceTravel_slipStands (before : Option Int) (p : Part) : SlipStands p (guidanceTravel before p) :=
  .of_table (by rw [guidanceTravel_length]) (by rw [guidanceTravel_length]) (guidanceTravel_beside before p).fed.table
    (guidanceTravel_beside before p).fed.store

theorem selectedTravel_slip (d : Int) (p : Part) : SlipStands p (selectedTravel d p)
    ∨ ((selectedTravel d p).feed.state = .idle ∧ (selectedTravel d p).length.slip = none) := by
  have c := beforeSensor_counted d p
  have start : SlipStands p (beforeSensor d p) :=
    .of_table (by rw [beforeSensor_units]) (by rw [beforeSensor_units]) c.table c.store
  rw [selectedTravel_eq]
  set z := endQualify (beforeSensor d p) with hz
  have fed := (feedTravelSampled_feedAndHold p.length.logPos z).slipStands.trans (guidanceTravel_slipStands p.length.logPos _)
  rcases (endQualify_outcome (beforeSensor d p)).slip with k | ⟨hs, hw⟩
  · exact .inl ((start.trans k).trans fed)
  · refine .inr ⟨?_, fed.slip.trans hw⟩
    rw [(guidanceTravel_beside _ _).fed.feed, feedTravelSampled_still _ (by rw [← hz] at hs; rw [hs]; rfl)]
    exact hs

/-- What a count of the selected source may raise. -/
def countRaises : List Condition := [.creep, .stall, .noEnd, .diamReject, .filler, .planEmpty]

theorem selectedTravel_works (d : Int) (p : Part) : Works countRaises p (selectedTravel d p) := by
  have link : (crossed d p).link = p.link := by rw [crossed_eq]; rfl
  have boot : (crossed d p).boot = p.boot := by rw [crossed_eq]; rfl
  have creep : Works countRaises p (beforeSensor d p) := by
    unfold beforeSensor
    rcases creepCheck_cases (crossed d p) with h | ⟨c, -, h⟩
    · rw [h]
      exact .of_same boot link
    · rw [h]
      refine Works.after ?_ boot link
      exact (Works.of_raise .creep _ (by simp [countRaises])).after rfl rfl
  rw [selectedTravel_eq]
  refine (creep.trans ((endQualify_outcome _).works.mono (by simp [armRaises, countRaises]))).trans ?_
  exact ((feedTravelSampled_works _ _).mono (by simp [fedRaises, travelRaises, feedRaises, countRaises])).trans
    (guidanceTravel_works _ _ _)

end Sys2Proof.Machine
end

section
namespace Sys2Proof.Machine

/-! ### Raw travel and marks in a count -/

/-- From `p` to `q` the raw wheel travel and the marks of log and carry stand, and the selected source. -/
structure LogsStand (p q : Part) : Prop where
  history : q.length.history.map (fun h => (h.mark, h.raw)) = p.length.history.map (fun h => (h.mark, h.raw))
  carry : q.length.carry.map (fun c => (c.log.mark, c.log.raw)) = p.length.carry.map (fun c => (c.log.mark, c.log.raw))
  source : q.source = p.source

theorem LogsStand.trans {p q t : Part} (h : LogsStand p q) (k : LogsStand q t) : LogsStand p t :=
  ⟨k.history.trans h.history, k.carry.trans h.carry, k.source.trans h.source⟩

protected theorem LogsStand.rfl (p : Part) : LogsStand p p := ⟨rfl, rfl, rfl⟩

theorem source_congr {p q : Part} (store : q.store = p.store) (contact : q.length.contact = p.length.contact)
    (suspect : q.length.suspect = p.length.suspect) : q.source = p.source := by
  unfold Part.source Part.wheelValid Part.setting
  rw [store, contact, suspect]

theorem LogsStand.of_length {p q : Part} (h : q.length = { p.length with creep := q.length.creep }) (store : q.store = p.store) :
    LogsStand p q := ⟨by rw [h], by rw [h], source_congr store (by rw [h]) (by rw [h])⟩

theorem beforeSensor_logs (d : Int) (p : Part) : LogsStand p (beforeSensor d p) := by
  have c := beforeSensor_counted d p
  obtain ⟨hh, hc⟩ := creepCheck_logs (crossed d p)
  have hist : (crossed d p).length.history = p.length.history := by rw [crossed_eq]; rfl
  have carry : (crossed d p).length.carry.map (fun c => (c.log.mark, c.log.raw)) = p.length.carry.map (fun c => (c.log.mark, c.log.raw)) := by
    rw [crossed_eq]
    change (p.length.carry.map _).map _ = _
    rw [Option.map_map]
    rfl
  refine ⟨?_, ?_, source_congr c.store (by rw [beforeSensor_units]) (by rw [beforeSensor_units])⟩
  · have k := map_of_map hh fun x => (x.1, x.2.2)
    unfold beforeSensor
    rw [k, hist]
  · have k := map_of_map hc fun x => (x.2.1, x.2.2.2)
    unfold beforeSensor
    rw [k, carry]

/-- A count whose sensor change does not qualify leaves raw travel, marks and source to the encoders. -/
theorem selectedTravel_logs {d : Int} {p : Part} (h : p.qualifies d = false) : LogsStand p (selectedTravel d p) := by
  have c := beforeSensor_counted d p
  rw [selectedTravel_eq, c.endQualify_short h]
  have ft := feedTravelSampled_feedAndHold p.length.logPos (beforeSensor d p)
  have fed : LogsStand (beforeSensor d p) _ := .of_length ft.length (show _ = _ by rw [ft])
  refine ((beforeSensor_logs d p).trans fed).trans (.of_length ?_ (guidanceTravel_beside _ _).fed.store)
  rw [guidanceTravel_length]

theorem inForce_source (p : Part) : p.inForce.1 = p.source := by
  unfold Part.inForce
  split <;> simp_all

/-- Under the same settings and stem table the values in force change exactly with the source. -/
theorem inForce_iff {p q : Part} (table : q.table = p.table) (store : q.store = p.store) : p.inForce = q.inForce ↔ q.source = p.source := by
  constructor
  · intro h
    rw [← inForce_source, ← inForce_source, h]
  · intro h
    have setting : ∀ n, q.setting n = p.setting n := fun n => by unfold Part.setting; rw [store]
    unfold Part.inForce Part.wheelPitch Part.wheelCorr Part.rollerPitch Part.rollerCorr
    simp only [h, setting, speciesValue_congr table store]

/-- A change of contact or suspicion that leaves the logs, once its scale is drawn. -/
theorem rescale_rawMoved {p q : Part} (table : q.table = p.table) (store : q.store = p.store)
    (history : q.length.history = p.length.history) (carry : q.length.carry = p.length.carry) : RawMoved id p (rescale p q) := by
  have source : (rescale p q).source = q.source := source_congr rfl (rescale_contact p q) (rescale_suspect p q)
  have beside := rescale_beside p q
  refine ⟨by rw [beside.historyRaw, history]; rfl, by rw [beside.carryRaw, carry]; rfl, fun h => ?_, fun h => ?_⟩
  · have same := (inForce_iff table store).mpr (source.symm.trans h)
    unfold rescale
    dsimp only
    rw [if_pos same]
    exact ⟨by rw [history], by rw [carry]⟩
  · have other : ¬p.inForce = q.inForce := fun k => h (source.trans ((inForce_iff table store).mp k))
    unfold rescale
    dsimp only
    rw [if_neg other]
    refine ⟨fun l hl => ?_, fun x hx => ?_⟩
    · obtain ⟨l', -, rfl⟩ := Option.map_eq_some_iff.mp hl
      rfl
    · obtain ⟨x', -, rfl⟩ := Option.map_eq_some_iff.mp hx
      rfl

theorem LogsStand.rawMoved {p q : Part} (h : LogsStand p q) : RawMoved id p q :=
  ⟨map_of_map h.history (·.2), map_of_map h.carry (·.2),
    fun _ => ⟨map_of_map h.history (·.1), map_of_map h.carry (·.1)⟩, fun k => absurd h.source k⟩

/-- Raw travel moved, with nothing before and after that touches raw travel, marks and source. -/
theorem RawMoved.within {move : Int → Int} {p q x t : Part} (before : RawMoved move p q) (src : q.source = p.source)
    (moved : RawMoved id q x) (after : LogsStand x t) : RawMoved move p t := by
  obtain ⟨b1, b2, b3, -⟩ := before
  obtain ⟨b3, b4⟩ := b3 src
  obtain ⟨m1, m2, m3, m4⟩ := moved
  refine ⟨((map_of_map after.history (·.2)).trans m1).trans b1, ((map_of_map after.carry (·.2)).trans m2).trans b2, fun h => ?_, fun h => ?_⟩
  · obtain ⟨k1, k2⟩ := m3 (by rw [← after.source, h, src])
    exact ⟨((map_of_map after.history (·.1)).trans k1).trans b3, ((map_of_map after.carry (·.1)).trans k2).trans b4⟩
  · obtain ⟨k1, k2⟩ := m4 (by rw [← after.source, src]; exact h)
    exact ⟨forall_of_map (map_of_map after.history (·.1)) k1, forall_of_map (map_of_map after.carry (·.1)) k2⟩

theorem flagSlip_logs (p : Part) : LogsStand p { p with length := p.length.flagSlip } := by
  refine ⟨?_, ?_, rfl⟩
  · change (p.length.history.map _).map _ = _
    rw [Option.map_map]
    rfl
  · change (p.length.carry.map _).map _ = _
    rw [Option.map_map]
    rfl

theorem slipClose_rawMoved (p : Part) : RawMoved id p (slipClose p) := by
  rcases h : p.length.slip with _ | w
  · rw [slipClose_none h]
    exact (LogsStand.rfl p).rawMoved
  rw [slipClose_some h]
  split
  · exact (LogsStand.rfl p).rawMoved
  · split
    · exact ((flagSlip_logs (freshWindow p)).trans (.of_length rfl rfl)).rawMoved
    · split
      · exact rescale_rawMoved (p := freshWindow p)
          (q := { freshWindow p with length := { (freshWindow p).length with suspect := true } }) rfl rfl rfl rfl
      · exact (LogsStand.rfl p).rawMoved

theorem seat_rawMoved (d : Int) (p : Part) : RawMoved id p (seat d p) := by
  by_cases h : ∃ x, p.length.contact = .seating x
  · obtain ⟨x, h⟩ := h
    rw [seat_seating d h]
    split
    · exact rescale_rawMoved (p := p) (q := { p with length := { p.length with contact := .seated } }) rfl rfl rfl rfl
    · refine LogsStand.rawMoved ⟨rfl, rfl, ?_⟩
      unfold Part.source Part.wheelValid
      rw [h]
      rfl
  · rw [seat_idle d (by simpa using h)]
    exact (LogsStand.rfl p).rawMoved

theorem conclude_logs (b : Part) {p : Part} (h : p.boot.resetPending = none ∨ p.link.busOff = false) : LogsStand p (conclude b p) := by
  have fol := conclude_follows b h
  exact ⟨by rw [fol], by rw [fol], source_congr fol.headWork.store (by rw [fol]) (by rw [fol])⟩

/-! ### A count begun at an encoder -/

/-- From `p` to `q` a count has moved its encoder, the raw wheel travel and the slip window's sum, and nothing else. -/
structure Begun (p q : Part) : Prop where
  eqn : q = { p with length := { p.length with
    wheel := q.length.wheel, roller := q.length.roller, history := q.length.history, carry := q.length.carry, slip := q.length.slip } }
  carry : q.length.carry.map (fun c => (c.pos, c.log.creep)) = p.length.carry.map (fun c => (c.pos, c.log.creep))
  history : q.length.history.map (·.creep) = p.length.history.map (·.creep)

theorem takeSample_of_length {p q : Part} (h : q = { p with length := q.length }) :
    (takeSample q).diameter.samples = (takeSample p).diameter.samples := by
  have bark : q.overBark4 = p.overBark4 := by rw [h]; rfl
  have species : q.inUse = p.inUse := by rw [h]; rfl
  have samples : q.diameter.samples = p.diameter.samples := by rw [h]
  unfold takeSample
  rw [bark, species]
  split
  · exact congrArg (pushSample · _) samples
  · exact samples

theorem Begun.length_only {p q : Part} (h : Begun p q) : q = { p with length := q.length } := by rw [h.eqn]

/-- A count seen from before its encoder moved. -/
theorem Counted.begun {d : Int} {p q y : Part} (c : Counted d q y) (h : Begun p q) : Counted d p y where
  table := c.table.trans (by rw [h.eqn])
  store := c.store.trans (by rw [h.eqn])
  saw := c.saw.trans (by rw [h.eqn])
  feed := c.feed.trans (by rw [h.eqn])
  monitor := c.monitor.trans (by rw [h.eqn])
  draws := c.draws.trans (by rw [h.eqn])
  head := c.head.trans (by rw [h.eqn])
  logPos := c.logPos.trans (by rw [h.eqn]; rfl)
  carryPos := by
    have k := congrArg (Option.map (movedTo d)) (map_of_map h.carry (·.1))
    rw [Option.map_map, Option.map_map] at k
    exact c.carryPos.trans k
  mirror := c.mirror.trans (by rw [h.eqn])
  endPending := c.endPending.trans (by rw [h.eqn])
  endCovered := c.endCovered.trans (by rw [h.eqn])
  entry := c.entry.trans (by rw [h.eqn])
  hold := c.hold.trans (by rw [h.eqn])
  sampled := by
    have k := c.sampled
    unfold Sampled at *
    rw [takeSample_of_length h.length_only] at k
    rw [h.eqn] at k
    exact k
  mid := by
    have k := c.mid
    rw [h.eqn] at k
    exact k
  creep := by
    have k := c.creep
    unfold CreepWatched at *
    rw [h.history, map_of_map h.carry (·.2)] at k
    rw [h.eqn] at k
    exact k
  raised i hi := (c.raised i hi).trans (by rw [h.eqn]; rfl)
  boot := c.boot.trans (by rw [h.eqn])
  busOff := c.busOff.trans (by rw [h.eqn])
  list := by
    have k := c.list
    rw [h.eqn] at k
    exact k
  short := by
    have k := c.short
    rw [h.eqn] at k
    exact k

end Sys2Proof.Machine
end

section
namespace Sys2Proof.Machine

/-! ### A count of the selected source, to the event's end -/

/-- The travel of a count, whatever follows it beside the feed, seen once the event is over. -/
theorem travelled_after {d : Int} {p q x : Part} {cs : List Condition} (begun : Begun p q) (guarded : MotionGuarded p)
    (beside : Beside (selectedTravel d q) x) (works : Works cs (selectedTravel d q) x)
    (monitor : x.monitor = (selectedTravel d q).monitor) (pend : x.boot.resetPending = none ∨ x.link.busOff = false)
    (busOff : x.link.busOff = p.link.busOff) : Travelled d p (conclude p x) := by
  have c := (beforeSensor_counted d q).begun begun
  have before : q.length.logPos = p.length.logPos := by rw [begun.eqn]
  rw [selectedTravel_eq, before] at beside works monitor
  set z := endQualify (beforeSensor d q) with hz
  have fed : Beside (fedTravel p.length.logPos z) (conclude p x) :=
    (((guidanceTravel_beside p.length.logPos (feedTravelSampled p.length.logPos z)).trans beside).holdTest).trans
      (conclude_beside p pend)
  rcases h : p.qualifies d
  · have short : z = beforeSensor d q := c.endQualify_short h
    rw [short] at beside works monitor fed
    refine travelled_short c h fed (guidance_tested c guarded ?_ fun hoff l hl h16 => ?_)
    · rw [← monitor, conclude_follows p pend]
    · exact conclude_keeps_prefix p pend (busOff.trans hoff) (hl.trans works.list) h16
  · exact travelled_qualified c h fed (endQualify_outcome _).head (endQualify_headWork _).draws

/-! ### A count of the encoder that is not selected -/

theorem conclude_diameter (b : Part) {p : Part} (h : p.boot.resetPending = none ∨ p.link.busOff = false)
    (holds : p.holdPasses = false) : (conclude b p).diameter = { p.diameter with
      dropTimer := if p.stemGone then some (p.diameter.dropTimer.getD 0) else none } := by
  rw [conclude_eq, resetInBusOff_idle h, holdTest_idle holds, concludeRest_eq]

theorem notTravelled_after {p q x : Part} (quiet : Quiet p) (begun : Begun p q) (beside : Beside q x)
    (eqn : x = { p with length := x.length, link := x.link }) (pend : x.boot.resetPending = none ∨ x.link.busOff = false) :
    NotTravelled p (conclude p x) := by
  have start : SameFed p q := by
    rw [begun.eqn]
    exact ⟨rfl, rfl, rfl, rfl, rfl, rfl, rfl, rfl, rfl, rfl, rfl, rfl⟩
  have holds : x.holdPasses = false := ((start.trans beside.fed).holdPasses).trans quiet.holds
  have fin := conclude_beside p pend
  rw [holdTest_idle holds] at fin
  have all := beside.trans fin
  have gone : x.stemGone = p.stemGone := by
    rw [eqn]
    rfl
  have diameter : x.diameter = p.diameter := by rw [eqn]
  refine ⟨all.draws.trans (by rw [begun.eqn]), (start.trans all.fed).table, (start.trans all.fed).feed, ?_, ?_,
    (start.trans all.fed).head, (start.trans all.fed).logPos, all.mirror.trans (by rw [begun.eqn]), (start.trans all.fed).creep,
    all.endPending.trans (by rw [begun.eqn]), all.endCovered.trans (by rw [begun.eqn]), all.carryPos.trans (map_of_map begun.carry (·.1)),
    all.historyCreep.trans begun.history, all.carryCreep.trans (map_of_map begun.carry (·.2))⟩
  · rw [conclude_diameter p pend holds, gone, diameter, ← quiet.drop]
  · rw [conclude_follows p pend]
    change x.monitor.guidance = _
    rw [eqn]

/-! ### The slip window at the event's end -/

theorem conclude_slip (b : Part) {p : Part} (h : p.boot.resetPending = none ∨ p.link.busOff = false) :
    (conclude b p).length.slip =
      if (conclude b p).slipRuns then some (p.length.slip.getD { wheel := 0, roller := 0 }) else none := by
  have slip : (holdTest p).length.slip = p.length.slip := by rw [(holdTest_feedAndHold p).length]
  rw [conclude_eq, resetInBusOff_idle h, concludeRest_eq, slip]
  rfl

theorem slipRuns_iff (p : Part) : p.slipRuns = true ↔ p.feed.state.heading = some .forward ∧ p.length.contact = .seated
    ∧ p.length.suspect = false ∧ p.hasActive = true := by
  unfold Part.slipRuns Part.wheelValid
  simp [and_assoc]

/-- An event that leaves the feed IDLE ends with no forward demand. -/
theorem conclude_idle (b : Part) {p : Part} (h : p.boot.resetPending = none ∨ p.link.busOff = false) (hs : p.feed.state = .idle) :
    (conclude b p).feed.state.heading = none := by
  rw [(conclude_sameFed b h).feed, holdTest_idle (holdPasses_of_still (by simp [Part.feeds, hs])), hs]
  rfl

/-- What the travel of a count has left of the slip window, whose sums stand at `w`. -/
def WindowAt (w : Option SlipWindow) (p x : Part) : Prop :=
  (x.length.slip = w ∧ x.length.suspect = p.length.suspect ∧ (∀ f, x.speciesValue f = p.speciesValue f) ∧ x.hasActive = p.hasActive)
    ∨ (x.feed.state = .idle ∧ x.length.slip = none)

theorem SlipStands.windowAt {p q x : Part} (begun : Begun p q) (h : SlipStands q x) : WindowAt q.length.slip p x :=
  .inl ⟨h.slip, h.suspect.trans (by rw [begun.eqn]), fun f => (h.species f).trans (by rw [begun.eqn]; rfl),
    h.active.trans (by rw [begun.eqn]; rfl)⟩

theorem selectedTravel_windowAt {d : Int} {p q : Part} (begun : Begun p q) : WindowAt q.length.slip p (selectedTravel d q) :=
  (selectedTravel_slip d q).elim (fun h => h.windowAt begun) .inr

theorem slipRuns_of_slip {p : Part} (quiet : Quiet p) (h : p.length.slip ≠ none) : p.slipRuns = true := by
  by_contra k
  exact h (quiet.slip.trans (if_neg k))

/-- What the end of an event shows of the slip window's close `c`. -/
structure CloseSeen (c q : Part) : Prop where
  slip : q.length.slip = if q.slipRuns then some (c.length.slip.getD { wheel := 0, roller := 0 }) else none
  raisedSlip : q.raised .slip = c.raised .slip
  raisedSuspect : q.raised .wheelSuspect = c.raised .wheelSuspect
  suspect : q.length.suspect = c.length.suspect
  history : q.length.history = c.length.history
  carry : q.length.carry = c.length.carry
  contact : q.length.contact = c.length.contact
  active : q.hasActive = c.hasActive

theorem conclude_closeSeen (b : Part) {p : Part} (h : p.boot.resetPending = none ∨ p.link.busOff = false) :
    CloseSeen p (conclude b p) where
  slip := conclude_slip b h
  raisedSlip := ((conclude_raises b h) _).2 (by simp [endRaises, feedRaises])
  raisedSuspect := ((conclude_raises b h) _).2 (by simp [endRaises, feedRaises])
  suspect := by rw [conclude_follows b h]
  history := by rw [conclude_follows b h]
  carry := by rw [conclude_follows b h]
  contact := by rw [conclude_follows b h]
  active := by
    unfold Part.hasActive
    rw [activeSlot_of_table (conclude_follows b h).table]

/-- With a forward demand at the end of an event whose wheel was valid, the slip window runs unless the wheel has become suspect. -/
theorem CloseSeen.runs {p x q : Part} (seen : CloseSeen (slipClose x) q) (before : p.slipRuns = true)
    (forward : q.feed.state.heading = some .forward) (contact : x.length.contact = p.length.contact)
    (kept : (slipClose x).length.contact = x.length.contact) (active : x.hasActive = p.hasActive) :
    q.slipRuns = !(slipClose x).length.suspect := by
  obtain ⟨-, seated, -, act⟩ := (slipRuns_iff p).mp before
  have act' : q.hasActive = true := by
    rw [seen.active, ← act, ← active]
    unfold Part.hasActive
    rw [activeSlot_of_table (slipClose_beside x).fed.table]
  have iff := slipRuns_iff q
  rw [seen.contact, kept, contact, seen.suspect] at iff
  rcases hs : (slipClose x).length.suspect
  · exact iff.mpr ⟨forward, seated, hs, act'⟩
  · by_contra k
    have k : q.slipRuns = true := by simpa using k
    exact absurd ((iff.mp k).2.2.1) (by simp [hs])

/-- A slip window of a wheel count that is compared, seen once the event is over. -/
theorem slip_sums_compared {d : Int} {p x q : Part} {w : SlipWindow} (seen : CloseSeen (slipClose x) q)
    (runs : q.slipRuns = !(slipClose x).length.suspect)
    (hs : x.length.slip = some { w with wheel := w.wheel + d }) (suspect : x.length.suspect = false)
    (species : ∀ f, x.speciesValue f = p.speciesValue f) :
    let sum := w.wheel + d
    let margin := p.speciesValue (·.slipTol) * 500
    let same : Prop := q.raised .slip = x.raised .slip ∧ q.raised .wheelSuspect = x.raised .wheelSuspect
    (sum < 500000 → same ∧ q.length.slip = some { w with wheel := sum } ∧ q.length.suspect = x.length.suspect)
      ∧ (500000 ≤ sum →
        (margin < w.roller - sum →
            q.raised .slip = true ∧ q.raised .wheelSuspect = x.raised .wheelSuspect ∧ q.length.suspect = x.length.suspect
              ∧ (∀ h, q.length.history = some h → h.slip = true) ∧ (∀ c, q.length.carry = some c → c.log.slip = true)
              ∧ q.length.slip = some { wheel := 0, roller := 0 })
          ∧ (w.roller - sum ≤ margin → margin < sum - w.roller →
            q.raised .wheelSuspect = true ∧ q.raised .slip = x.raised .slip ∧ q.length.suspect = true ∧ q.length.slip = none)
          ∧ (w.roller - sum ≤ margin → sum - w.roller ≤ margin →
            same ∧ q.length.suspect = x.length.suspect ∧ q.length.slip = some { wheel := 0, roller := 0 })) := by
  intro sum margin same
  have e := slipClose_some hs
  dsimp only at e
  rw [species] at e
  have slip := seen.slip
  rw [runs] at slip
  simp only [same, seen.raisedSlip, seen.raisedSuspect, seen.suspect, seen.history, seen.carry, slip]
  refine ⟨fun hlt => ?_, fun hge => ⟨fun h1 => ?_, fun h1 h2 => ?_, fun h1 h2 => ?_⟩⟩
  · rw [if_pos hlt] at e
    rw [e, suspect, hs]
    exact ⟨⟨rfl, rfl⟩, rfl, rfl⟩
  · rw [if_neg (by omega), if_pos h1] at e
    have trusted : (slipClose x).length.suspect = false := by rw [e]; exact suspect
    rw [trusted, suspect, e, raised_raise, raised_raise]
    refine ⟨by simp, ?_, rfl, fun l hl => ?_, fun c hc => ?_, rfl⟩
    · simp
      rfl
    · obtain ⟨l', -, rfl⟩ := Option.map_eq_some_iff.mp hl
      rfl
    · obtain ⟨c', -, rfl⟩ := Option.map_eq_some_iff.mp hc
      rfl
  · rw [if_neg (by omega), if_neg (by omega), if_pos h2] at e
    have distrusted : (slipClose x).length.suspect = true := by rw [e]; exact rescale_suspect _ _
    rw [distrusted, e, wheelSuspect, raised_raise, raised_raise]
    refine ⟨by simp, ?_, rfl, rfl⟩
    simp
    rfl
  · rw [if_neg (by omega), if_neg (by omega), if_neg (by omega)] at e
    have trusted : (slipClose x).length.suspect = false := by rw [e]; exact suspect
    rw [trusted, suspect, e]
    exact ⟨⟨rfl, rfl⟩, rfl, rfl⟩

/-- A wheel count's slip window, seen once the event is over. -/
theorem slip_compared {d : Int} {p x : Part} (quiet : Quiet p)
    (window : WindowAt (p.length.slip.map fun w => { w with wheel := w.wheel + d }) p x)
    (contact : x.length.contact = p.length.contact) (kept : (slipClose x).length.contact = x.length.contact)
    (slip : x.raised .slip = p.raised .slip) (suspect : x.raised .wheelSuspect = p.raised .wheelSuspect)
    (pend : (slipClose x).boot.resetPending = none ∨ (slipClose x).link.busOff = false) :
    SlipCompared d p (conclude p (slipClose x)) := by
  have seen := conclude_closeSeen p pend
  set q := conclude p (slipClose x) with hq
  refine ⟨fun h => ?_, fun h => ?_, fun w hw hh => ?_⟩
  · rw [seen.slip, h]
    rfl
  · have none : x.length.slip = none := by
      rcases window with ⟨h', -⟩ | ⟨-, h'⟩
      · rw [h', h]
        rfl
      · exact h'
    rw [seen.raisedSlip, seen.raisedSuspect, seen.slip, slipClose_none none, none]
    exact ⟨⟨slip, suspect⟩, fun hr => by rw [hr]; rfl⟩
  · obtain ⟨hs, hsus, hspec, hact⟩ := window.resolve_right fun ⟨k, _⟩ => by
      have idle := conclude_idle p pend ((congrArg Feed.state (slipClose_beside x).fed.feed).trans k)
      rw [← hq, hh] at idle
      cases idle
    have before := slipRuns_of_slip quiet (by simp [hw])
    have trusted : x.length.suspect = false := hsus.trans ((slipRuns_iff p).mp before).2.2.1
    rw [hw] at hs
    have compared := slip_sums_compared (w := w) (d := d) seen (seen.runs before hh contact kept hact) hs trusted hspec
    rw [slip, suspect, hsus] at compared
    exact compared

end Sys2Proof.Machine
end

section
namespace Sys2Proof.Machine

/-! ### The roller's sum and the seating -/

theorem rescale_slip {p q : Part} (h : p.scales = q.scales) : (rescale p q).length.slip = q.length.slip := by
  unfold rescale
  dsimp only
  rw [if_pos h]
  split <;> rfl

theorem seat_slip (d : Int) (p : Part) : (seat d p).length.slip = p.length.slip := by
  by_cases h : ∃ x, p.length.contact = .seating x
  · obtain ⟨x, h⟩ := h
    rw [seat_seating d h]
    split
    · exact rescale_slip rfl
    · rfl
  · rw [seat_idle d (by simpa using h)]

/-- A roller count's slip window, seen once the event is over. -/
theorem slip_summed {d : Int} {p x : Part} (window : WindowAt (p.length.slip.map fun w => { w with roller := w.roller + d }) p x)
    (pend : (seat d x).boot.resetPending = none ∨ (seat d x).link.busOff = false) : SlipSummed d p (conclude p (seat d x)) := by
  have closes := conclude_slip p pend
  rw [seat_slip] at closes
  unfold SlipSummed
  rw [closes]
  rcases window with ⟨hs, -⟩ | ⟨idle, -⟩
  · rw [hs]
    rcases p.length.slip with _ | w <;> rfl
  · have off : (conclude p (seat d x)).slipRuns = false := by
      by_contra k
      have still := conclude_idle p pend ((congrArg Feed.state (seat_beside d x).fed.feed).trans idle)
      rw [((slipRuns_iff _).mp (by simpa using k)).1] at still
      cases still
    rw [off]
    rfl

/-- The wheel's contact after the seating distance has moved on. -/
theorem seat_contact (d : Int) (p : Part) : (p.length.contact = .lifted → (seat d p).length.contact = .lifted)
    ∧ (p.length.contact = .seated → (seat d p).length.contact = .seated)
    ∧ ∀ x, p.length.contact = .seating x →
      (seat d p).length.contact = if 50000 ≤ x + d.natAbs then .seated else .seating (x + d.natAbs) := by
  refine ⟨fun h => ?_, fun h => ?_, fun x h => ?_⟩
  · rw [seat_idle d (by simp [h]), h]
  · rw [seat_idle d (by simp [h]), h]
  · rw [seat_seating d h]
    split
    · exact rescale_contact _ _
    · rfl

theorem seat_eqn (d : Int) (p : Part) : seat d p = { p with length := (seat d p).length } := by
  by_cases h : ∃ x, p.length.contact = .seating x
  · obtain ⟨x, h⟩ := h
    rw [seat_seating d h]
    split <;> rfl
  · rw [seat_idle d (by simpa using h)]

theorem slipClose_eqn (p : Part) : slipClose p = { p with length := (slipClose p).length, link := (slipClose p).link } := by
  rcases h : p.length.slip with _ | w
  · rw [slipClose_none h]
  rw [slipClose_some h]
  split
  · rfl
  · split
    · rfl
    · split <;> rfl

theorem rescale_encoders (p q : Part) :
    (rescale p q).length.wheel = q.length.wheel ∧ (rescale p q).length.roller = q.length.roller := by
  unfold rescale
  dsimp only
  split <;> exact ⟨rfl, rfl⟩

theorem seat_encoders (d : Int) (p : Part) : (seat d p).length.wheel = p.length.wheel ∧ (seat d p).length.roller = p.length.roller := by
  by_cases h : ∃ x, p.length.contact = .seating x
  · obtain ⟨x, h⟩ := h
    rw [seat_seating d h]
    split
    · exact rescale_encoders _ _
    · exact ⟨rfl, rfl⟩
  · rw [seat_idle d (by simpa using h)]
    exact ⟨rfl, rfl⟩

/-- The close of a slip window touches neither encoders nor contact nor the saw. -/
theorem slipClose_gauges (p : Part) : GaugesKept p (slipClose p) := by
  refine ⟨?_, ?_, ?_, by rw [slipClose_eqn]⟩
  all_goals
    rcases h : p.length.slip with _ | w
    · rw [slipClose_none h]
    rw [slipClose_some h]
    split
    · rfl
    · split
      · rfl
      · split
        · first
          | exact (rescale_encoders _ _).1
          | exact (rescale_encoders _ _).2
          | exact rescale_contact _ _
        · rfl

theorem conclude_gauges (b : Part) {p : Part} (h : p.boot.resetPending = none ∨ p.link.busOff = false) :
    GaugesKept p (conclude b p) := by
  have fol := conclude_follows b h
  exact ⟨by rw [fol], by rw [fol], by rw [fol], fol.saw⟩

/-! ### The encoders' arithmetic -/

/-- The sign of a count. -/
def countSign (forward : Bool) : Int := if forward then 1 else -1

theorem signed_eq (forward : Bool) (x : Int) : signed forward x = countSign forward * x := by
  cases forward <;> simp [signed, countSign]

/-- What a count leaves in an encoder: whole µm in the accumulator, the rest in the remainder, nothing lost (03 R53). -/
theorem count_spec (e : Encoder) (pitch corr : Int) (forward : Bool) :
    let travel := e.rem + countSign forward * (pitch * (1000000 + corr))
    e.count pitch corr forward = { acc := e.acc + travel.tdiv 1000000, rem := travel.tmod 1000000 }
      ∧ (e.count pitch corr forward).acc * 1000000 + (e.count pitch corr forward).rem = e.acc * 1000000 + travel
      ∧ (e.count pitch corr forward).rem.natAbs < 1000000 := by
  intro travel
  have form : e.count pitch corr forward = { acc := e.acc + travel.tdiv 1000000, rem := travel.tmod 1000000 } := by
    unfold Encoder.count
    rw [signed_eq]
  refine ⟨form, ?_, ?_⟩
  · rw [Encoder.count_exact, signed_eq]
  · rw [form]
    have := Int.natAbs_tmod travel 1000000
    dsimp only
    rw [this]
    exact Nat.mod_lt _ (by decide)

/-! ### The two counts -/

/-- A count whose encoder is the selected source, or is not, as one step. -/
def travelIf (selected : Prop) [Decidable selected] (d : Int) (p : Part) : Part := if selected then selectedTravel d p else p

section TravelIf

variable {selected : Prop} [Decidable selected] {d : Int} {p : Part}

theorem travelIf_pos (h : selected) : travelIf selected d p = selectedTravel d p := if_pos h

theorem travelIf_neg (h : ¬selected) : travelIf selected d p = p := if_neg h

theorem travelIf_gauges : GaugesKept p (travelIf selected d p) := by
  unfold travelIf
  split
  · exact selectedTravel_gauges d p
  · exact .rfl p

theorem travelIf_works : Works countRaises p (travelIf selected d p) := by
  unfold travelIf
  split
  · exact selectedTravel_works d p
  · exact .rfl _ p

theorem travelIf_windowAt {b : Part} (begun : Begun b p) : WindowAt p.length.slip b (travelIf selected d p) := by
  unfold travelIf
  split
  · exact selectedTravel_windowAt begun
  · exact (SlipStands.rfl p).windowAt begun

end TravelIf

/-- The travel in whole µm of a wheel count. -/
def Part.wheelStep (p : Part) (forward : Bool) : Int := (p.length.wheel.count p.wheelPitch p.wheelCorr forward).acc - p.length.wheel.acc

/-- A wheel count once its encoder, the raw wheel travel and the slip window's sum have moved. -/
def wheelStart (forward : Bool) (p : Part) : Part := { p with length := { p.length with
  wheel := p.length.wheel.count p.wheelPitch p.wheelCorr forward
  history := p.length.history.map (·.addRaw (signed forward p.wheelPitch))
  carry := p.length.carry.map fun c => { c with log := c.log.addRaw (signed forward p.wheelPitch) }
  slip := p.length.slip.map fun w => { w with wheel := w.wheel + p.wheelStep forward } } }

theorem wheelCounts_eq (forward : Bool) (p : Part) : wheelCounts forward p =
    slipClose (travelIf (p.source = .wheel) (p.wheelStep forward) (wheelStart forward p)) := rfl

theorem wheelStart_begun (forward : Bool) (p : Part) : Begun p (wheelStart forward p) := by
  refine ⟨rfl, ?_, ?_⟩
  · change (p.length.carry.map _).map _ = _
    rw [Option.map_map]
    rfl
  · change (p.length.history.map _).map _ = _
    rw [Option.map_map]
    rfl

/-- The travel in whole µm of a roller count. -/
def Part.rollerStep (p : Part) (forward : Bool) : Int :=
  (p.length.roller.count p.rollerPitch p.rollerCorr forward).acc - p.length.roller.acc

/-- A roller count once its encoder and the slip window's sum have moved. -/
def rollerStart (forward : Bool) (p : Part) : Part := { p with length := { p.length with
  roller := p.length.roller.count p.rollerPitch p.rollerCorr forward
  slip := p.length.slip.map fun w => { w with roller := w.roller + p.rollerStep forward } } }

theorem rollerCounts_eq (forward : Bool) (p : Part) : rollerCounts forward p = seat (p.rollerStep forward)
    (travelIf (p.source = .roller) (p.rollerStep forward) (rollerStart forward p)) := rfl

theorem rollerStart_begun (forward : Bool) (p : Part) : Begun p (rollerStart forward p) := ⟨rfl, rfl, rfl⟩

theorem wheelStart_rawMoved (forward : Bool) (p : Part) :
    RawMoved (movedTo (countSign forward * p.wheelPitch)) p (wheelStart forward p) := by
  have map : ∀ {α β γ : Type} (f : β → γ) (g : α → β) (x : Option α), (x.map g).map f = x.map fun a => f (g a) := fun f g x => by
    rw [Option.map_map]
    rfl
  rw [← signed_eq]
  exact ⟨map _ _ _, map _ _ _, fun _ => ⟨map _ _ _, map _ _ _⟩, fun h => absurd rfl h⟩

theorem rollerStart_rawMoved (forward : Bool) (p : Part) : RawMoved id p (rollerStart forward p) :=
  LogsStand.rawMoved ⟨rfl, rfl, rfl⟩

theorem CountWork.busOff {p q : Part} (h : CountWork p q) : q.link.busOff = p.link.busOff := by
  unfold CountWork HeadWork at h
  rw [h]

end Sys2Proof.Machine
end

section
namespace Sys2Proof.Machine

/-! ### WHEEL_COUNT and ROLLER_COUNT -/

theorem counted_raises {cs ds : List Condition} {p x : Part} (works : Works cs p x) (pend : x.boot.resetPending = none ∨ x.link.busOff = false)
    (h : cs ⊆ ds) (k : endRaises ⊆ ds) : RaisesOnly ds p (conclude p x) :=
  (works.raises.mono h).trans ((conclude_raises p pend).mono k)

/-- A settled part's count works to its end with no reset released. -/
theorem counted_pend {cs : List Condition} {p x : Part} (quiet : Quiet p) (works : Works cs p x) (work : CountWork p x) :
    x.boot.resetPending = none ∨ x.link.busOff = false := by
  rw [works.boot, work.busOff]
  exact quiet.pending

theorem wheelTravel_works (forward : Bool) (p : Part) :
    Works countRaises p (travelIf (p.source = .wheel) (p.wheelStep forward) (wheelStart forward p)) :=
  travelIf_works.after rfl rfl

theorem wheelCounts_works (forward : Bool) (p : Part) : Works (slipRaises ++ countRaises) p (wheelCounts forward p) := by
  rw [wheelCounts_eq]
  exact .since ((slipClose_works _).mono (List.subset_append_left ..)) ((wheelTravel_works forward p).mono (List.subset_append_right ..))

theorem wheelCounts_gauges (forward : Bool) (p : Part) : GaugesKept (wheelStart forward p) (wheelCounts forward p) := by
  rw [wheelCounts_eq]
  exact travelIf_gauges.trans (slipClose_gauges _)

/-- What a wheel count moves, seen once the event is over. -/
theorem wheelCount_moves (forward : Bool) {p : Part} (quiet : Quiet p) (guarded : MotionGuarded p) :
    let q := conclude p (wheelCounts forward p)
    SlipCompared (p.wheelStep forward) p q
      ∧ (p.source = .roller → NotTravelled p q ∧ RawMoved (movedTo (countSign forward * p.wheelPitch)) p q)
      ∧ (p.source = .wheel → Travelled (p.wheelStep forward) p q
          ∧ (p.qualifies (p.wheelStep forward) = false → RawMoved (movedTo (countSign forward * p.wheelPitch)) p q)) := by
  have begun := wheelStart_begun forward p
  have travel := wheelTravel_works forward p
  have work := wheelCounts_countWork forward p
  have pend := counted_pend quiet (wheelCounts_works forward p) work
  have start := wheelStart_rawMoved forward p
  intro q
  rw [wheelCounts_eq] at work pend
  refine ⟨?_, fun hsrc => ?_, fun hsrc => ?_⟩
  · exact slip_compared quiet (travelIf_windowAt begun) (travelIf_gauges (p := wheelStart forward p)).contact
      (slipClose_gauges _).contact ((travel.raises _).2 (by simp [countRaises])) ((travel.raises _).2 (by simp [countRaises])) pend
  · have eq : q = conclude p (slipClose (wheelStart forward p)) := by
      change conclude p (wheelCounts forward p) = _
      rw [wheelCounts_eq, travelIf_neg (by simp [hsrc])]
    rw [travelIf_neg (by simp [hsrc])] at pend
    rw [eq]
    refine ⟨notTravelled_after quiet begun (slipClose_beside _) ?_ pend, start.within rfl (slipClose_rawMoved _) (conclude_logs p pend)⟩
    rw [slipClose_eqn]
    rfl
  · have eq : q = conclude p (slipClose (selectedTravel (p.wheelStep forward) (wheelStart forward p))) := by
      change conclude p (wheelCounts forward p) = _
      rw [wheelCounts_eq, travelIf_pos hsrc]
    rw [travelIf_pos hsrc] at pend work
    rw [eq]
    refine ⟨travelled_after begun guarded (slipClose_beside _) (slipClose_works _) (by rw [slipClose_eqn]) pend work.busOff, fun h => ?_⟩
    have logs := selectedTravel_logs (p := wheelStart forward p) h
    exact (start.within rfl logs.rawMoved (.rfl _)).within logs.source (slipClose_rawMoved _) (conclude_logs p pend)

theorem rollerCounts_works (forward : Bool) (p : Part) : Works countRaises p (rollerCounts forward p) := by
  rw [rollerCounts_eq]
  exact .since (seat_works _ _ _) (travelIf_works.after rfl rfl)

theorem rollerCounts_encoders (forward : Bool) (p : Part) : (rollerCounts forward p).length.wheel = p.length.wheel
    ∧ (rollerCounts forward p).length.roller = p.length.roller.count p.rollerPitch p.rollerCorr forward
    ∧ (rollerCounts forward p).saw = p.saw := by
  have travel : GaugesKept (rollerStart forward p) (travelIf (p.source = .roller) (p.rollerStep forward) (rollerStart forward p)) :=
    travelIf_gauges
  rw [rollerCounts_eq]
  exact ⟨(seat_encoders _ _).1.trans travel.wheel, (seat_encoders _ _).2.trans travel.roller, (seat_beside _ _).fed.saw.trans travel.saw⟩

/-- The contact after a roller count. -/
theorem rollerCounts_contact (forward : Bool) (p : Part) :
    (p.length.contact = .lifted → (rollerCounts forward p).length.contact = .lifted)
      ∧ (p.length.contact = .seated → (rollerCounts forward p).length.contact = .seated)
      ∧ ∀ x, p.length.contact = .seating x → (rollerCounts forward p).length.contact =
        if 50000 ≤ x + (p.rollerStep forward).natAbs then .seated else .seating (x + (p.rollerStep forward).natAbs) := by
  have travel : GaugesKept (rollerStart forward p) (travelIf (p.source = .roller) (p.rollerStep forward) (rollerStart forward p)) :=
    travelIf_gauges
  have contact := travel.contact
  rw [rollerCounts_eq, show p.length.contact = _ from contact.symm]
  exact seat_contact _ _

/-- What a roller count moves, seen once the event is over. -/
theorem rollerCount_moves (forward : Bool) {p : Part} (quiet : Quiet p) (guarded : MotionGuarded p) :
    let q := conclude p (rollerCounts forward p)
    SlipSummed (p.rollerStep forward) p q
      ∧ (p.source = .wheel → NotTravelled p q ∧ RawMoved id p q)
      ∧ (p.source = .roller → Travelled (p.rollerStep forward) p q ∧ (p.qualifies (p.rollerStep forward) = false → RawMoved id p q)) := by
  have begun := rollerStart_begun forward p
  have work := rollerCounts_countWork forward p
  have pend := counted_pend quiet (rollerCounts_works forward p) work
  have start := rollerStart_rawMoved forward p
  intro q
  rw [rollerCounts_eq] at work pend
  refine ⟨slip_summed (travelIf_windowAt begun) pend, fun hsrc => ?_, fun hsrc => ?_⟩
  · have eq : q = conclude p (seat (p.rollerStep forward) (rollerStart forward p)) := by
      change conclude p (rollerCounts forward p) = _
      rw [rollerCounts_eq, travelIf_neg (by simp [hsrc])]
    rw [travelIf_neg (by simp [hsrc])] at pend
    rw [eq]
    refine ⟨notTravelled_after quiet begun (seat_beside _ _) ?_ pend, start.within rfl (seat_rawMoved _ _) (conclude_logs p pend)⟩
    rw [seat_eqn]
    rfl
  · have eq : q = conclude p (seat (p.rollerStep forward) (selectedTravel (p.rollerStep forward) (rollerStart forward p))) := by
      change conclude p (rollerCounts forward p) = _
      rw [rollerCounts_eq, travelIf_pos hsrc]
    rw [travelIf_pos hsrc] at pend work
    rw [eq]
    refine ⟨travelled_after begun guarded (seat_beside _ _) (seat_works _ _ []) (by rw [seat_eqn]) pend work.busOff, fun h => ?_⟩
    have logs := selectedTravel_logs (p := rollerStart forward p) h
    exact (start.within rfl logs.rawMoved (.rfl _)).within logs.source (seat_rawMoved _ _) (conclude_logs p pend)

/-- Settles O40: encoder, raw travel and window sum move, the selected source travels as `travelled_after` has it and the other does
not, and the window's close or the seating follows beside the feed. -/
theorem countsMoveTheSums : Obligations.CountsMoveTheSums := by
  intro forward s hs guarded hon sign
  have quiet := hs.quiet hon
  refine ⟨?_, ?_⟩
  · have works := wheelCounts_works forward s.part
    have work := wheelCounts_countWork forward s.part
    have pend := counted_pend quiet works work
    have gauges := (wheelCounts_gauges forward s.part).trans (conclude_gauges s.part pend)
    have wheel : (conclude s.part (wheelCounts forward s.part)).length.wheel
        = s.part.length.wheel.count s.part.wheelPitch s.part.wheelCorr forward := gauges.wheel
    refine ⟨_, runs_on rfl (perform_on hon rfl), work.trans (conclude_follows s.part pend).headWork.countWork, gauges.saw, ?_,
      gauges.roller, gauges.contact, counted_raises works pend (by simp [countRaises, slipRaises]) (by simp [endRaises, feedRaises]), ?_⟩
    · rw [wheel]
      exact count_spec s.part.length.wheel s.part.wheelPitch s.part.wheelCorr forward
    · rw [wheel]
      exact wheelCount_moves forward quiet guarded
  · have works := rollerCounts_works forward s.part
    have work := rollerCounts_countWork forward s.part
    have pend := counted_pend quiet works work
    have fin := conclude_gauges s.part pend
    obtain ⟨hwheel, hroller, hsaw⟩ := rollerCounts_encoders forward s.part
    obtain ⟨lifted, seated, seating⟩ := rollerCounts_contact forward s.part
    have roller := fin.roller.trans hroller
    have contact := fin.contact
    rw [← contact] at lifted seated seating
    obtain ⟨sums, rest⟩ := rollerCount_moves forward quiet guarded
    refine ⟨_, runs_on rfl (perform_on hon rfl), work.trans (conclude_follows s.part pend).headWork.countWork, fin.saw.trans hsaw, ?_,
      fin.wheel.trans hwheel, counted_raises works pend (by simp [countRaises]) (by simp [endRaises, feedRaises]), lifted, seated, ?_⟩
    · rw [roller]
      exact count_spec s.part.length.roller s.part.rollerPitch s.part.rollerCorr forward
    · rw [roller]
      exact ⟨sums, seating, rest⟩

end Sys2Proof.Machine
end

section
namespace Sys2Proof.Machine

/-! ### The lateness test -/

/-- Settles O28: `tooLate` is a case split over the feed states. -/
theorem latenessTestByFeedState : Obligations.LatenessTestByFeedState := by
  intro p target pos hpos
  refine ⟨fun h => ?_, fun h => ?_, fun h => ?_⟩
  · rcases h with h | h | ⟨d, h⟩ | h <;> simp [Part.tooLate, h]
  · simp [Part.tooLate, h, hpos]
  · rcases h with h | h | h | ⟨ph, h⟩ | h | h <;> simp [Part.tooLate, h]

/-! ### The entry and the results of a cut start -/

theorem contains_iff (e : Planned) (pos : Int) :
    e.contains pos = true ↔ e.target - e.minus ≤ pos ∧ pos ≤ e.target + e.plus := by
  simp [Planned.contains]

theorem cutEntry_armed {p : Part} {r : Record} {e : Entry} {pos : Int} (hp : p.logMm = some pos) (h : r.armed = some e)
    (kind : CutKind) :
    p.cutEntry r kind = if cutTakesEntry kind e pos r.entries.length then some e else none := by
  simp [Part.cutEntry, h, hp]

/-- A manual cut takes the ARMED entry within its window, or with the list full (02 R41). -/
theorem cutTakesEntry_manual (e : Entry) (pos : Int) (n : Nat) :
    cutTakesEntry .manual e pos n = true ↔
      (e.plan.target - e.plan.minus ≤ pos ∧ pos ≤ e.plan.target + e.plan.plus) ∨ 12 ≤ n := by
  unfold cutTakesEntry
  rw [Bool.or_eq_true, contains_iff, decide_eq_true_iff]
  rfl

/-- Settles O53: the entry by the kind of the cut (`cutEntry_armed`), the results field by field. -/
theorem cutStartSettlesTheEntry : Obligations.CutStartSettlesTheEntry := by
  intro p r pos hp
  refine ⟨fun kind h => by simp [Part.cutEntry, h], fun e h => ?_, fun kind e => ?_⟩
  · have taken := cutEntry_armed hp h
    have manual := cutTakesEntry_manual e pos r.entries.length
    refine ⟨by rw [taken]; rfl, by rw [taken]; rfl, fun lo hi => ?_, fun out => ⟨fun full => ?_, fun room => ?_⟩⟩
    · rw [taken, if_pos (manual.mpr (.inl ⟨lo, hi⟩))]
    · rw [taken, if_pos (manual.mpr (.inr full))]
    · rw [taken, if_neg fun k => ?_]
      rcases manual.mp k with ⟨lo, hi⟩ | full <;> omega
  · refine ⟨by simp [Part.takeResults, hp], rfl, rfl, ?_, by simp [Part.takeResults, startFlags], fun x hx => ?_, fun h hh => ?_⟩
    · cases e <;> simp [Part.takeResults]
    · subst hx
      refine ⟨by simp [Part.takeResults, startFlags, hp], by simp [Part.takeResults, startFlags, hp], ?_⟩
      simp [Part.takeResults, startFlags]
    · simp [Part.takeResults, startFlags, hh, LogHistory.rawLength]

end Sys2Proof.Machine
end

section
namespace Sys2Proof.Machine

/-! ### A cut start, seen from before and after it -/

/-- A cut start takes from the part no more than its records, its measuring units, its settings, its profile and the feed's
correction count: what it leaves is a cut started of any part with the same. -/
theorem CutStarted.begun {kind : CutKind} {p p' q : Part} (h : CutStarted kind p' q)
    (work : p' = { p with
      pins := p'.pins, feed := p'.feed, saw := p'.saw, length := { p.length with creep := p'.length.creep }, link := p'.link })
    (corrections : p'.feed.corrections = p.feed.corrections) : CutStarted kind p q := by
  have results : p'.takeResults = p.takeResults := by
    funext k e
    unfold Part.takeResults
    rw [corrections, work]
    rfl
  unfold CutStarted at *
  rw [results] at h
  rw [work] at h
  exact h

/-- What keeps table, carry, log and held entry shows the same cut started. -/
theorem CutStarted.seen {kind : CutKind} {p x q : Part} (h : CutStarted kind p x) (fol : Follows x q)
    (held : q.feed.held = x.feed.held) : CutStarted kind p q := by
  unfold CutStarted Part.recordAt at *
  have others : ∀ i, OtherSlotsKept p x i → OtherSlotsKept p q i := fun i k => by
    unfold OtherSlotsKept
    rw [fol.table]
    exact k
  rw [fol.table, held, fol.carry, show q.length.logPos = x.length.logPos by rw [fol],
    show q.length.history = x.length.history by rw [fol]]
  refine ⟨h.1, fun i r hi hr => ?_⟩
  obtain ⟨carry, pos, log, other, rest⟩ := h.2 i r hi hr
  exact ⟨carry, pos, log, others i other, rest⟩

/-- Nothing is handed on but that there is no entry, and a feed in CUT_WAIT keeps its state. -/
theorem handOver_none_cutWait {p : Part} (fresh : Bool) (h : p.feed.state = .cutWait) :
    handOver none fresh p = { p with
      diameter := p.diameter.take p.length.logPos none, feed := { p.feed with held := none }
      monitor := { p.monitor with guidance := p.monitor.guidance.take none } } := by
  unfold handOver
  dsimp only
  rw [feedReact_cutWait (p := { p with
    diameter := p.diameter.take p.length.logPos none, feed := p.feed.take none fresh
    monitor := { p.monitor with guidance := p.monitor.guidance.take none } }) _ h]
  simp [Feed.take]

/-- The part as a cut begins, its carry started. -/
def carrying (p : Part) : Part :=
  { p with length := { p.length with carry := some { pos := 0, log := p.freshLog 0 } } }

/-- The part with a cut bound. -/
def Part.bind (b : BoundCut) (p : Part) : Part := { p with table := { p.table with bound := some b } }

/-- The record of a slot once its ARMED entry is CUTTING. -/
def Record.cuts (r : Record) (e : Entry) : Record :=
  { r with entries := (changeFirst e.ident .armed Entry.toCutting r.entries).getD r.entries }

section Starts

variable {kind : CutKind} {p : Part} {i : Fin 8} {r : Record}

theorem cutStart_idle (h : p.activeSlot = none) : cutStart kind p = { p with table := { p.table with bound := none } } := by
  simp [cutStart, h]

theorem cutStart_reference (hi : p.activeSlot = some i) (hr : p.recordAt i = some r) (h : r.reference = .none) :
    cutStart kind p =
      (carrying p).bind { slot := i, kind, target := .reference p.monitor.profile p.currentDiameter } := by
  simp [cutStart, hi, activeRecord_of_slot hi, hr, h]
  rfl

theorem cutStart_entry {e : Entry} (hi : p.activeSlot = some i) (hr : p.recordAt i = some r) (h : r.reference ≠ .none)
    (he : p.cutEntry r kind = some e) : cutStart kind p = handOver none false
      (((carrying p).setRecord i (some (r.cuts e))).bind
        { slot := i, kind, target := .entry e.ident (p.takeResults kind (some e.plan)) }) := by
  simp [cutStart, hi, activeRecord_of_slot hi, hr, h, he]
  rfl

theorem cutStart_placed (hi : p.activeSlot = some i) (hr : p.recordAt i = some r) (h : r.reference ≠ .none)
    (he : p.cutEntry r kind = none) : cutStart kind p =
      (carrying p).bind { slot := i, kind, target := .placed (p.takeResults kind none) } := by
  simp [cutStart, hi, activeRecord_of_slot hi, hr, h, he]
  rfl

end Starts

/-- A cut start starts a cut (01 R16, 02 R41, 03 R62). -/
theorem cutStart_started (kind : CutKind) (p : Part) : CutStarted kind p (cutStart kind p) := by
  refine ⟨fun h => ?_, fun i r hi hr => ?_⟩
  · have none : p.activeSlot = none := by simpa [Part.hasActive] using h
    rw [cutStart_idle none]
    exact ⟨rfl, rfl⟩
  · by_cases href : r.reference = .none
    · rw [cutStart_reference hi hr href]
      exact ⟨rfl, rfl, rfl, fun _ _ => rfl, fun _ => ⟨rfl, hr⟩, fun k => absurd href k, fun k => absurd href k⟩
    rcases he : p.cutEntry r kind with _ | e
    · rw [cutStart_placed hi hr href he]
      exact ⟨rfl, rfl, rfl, fun _ _ => rfl, fun k => absurd k href, fun _ _ k => (by cases k), fun _ _ => ⟨rfl, hr⟩⟩
    · have start := cutStart_entry hi hr href he
      set t := ((carrying p).setRecord i (some (r.cuts e))).bind
        { slot := i, kind, target := .entry e.ident (p.takeResults kind (some e.plan)) } with ht
      have handed := handOver_handed none false t
      have table : (handOver none false t).table = t.table := handOver_table _ _ _
      have length := handed.length
      rw [start]
      refine ⟨by rw [length]; rfl, by rw [length]; rfl, by rw [length]; rfl, ?_, fun k => absurd k href, fun _ e' k => ?_,
        fun _ k => (by cases k)⟩
      · intro j hj
        rw [table]
        exact setRecord_others (carrying p) i _ j hj
      · cases k
        refine ⟨by rw [table]; rfl, ?_, handOver_held _ _ _⟩
        rw [Part.recordAt, table]
        exact recordAt_setRecord_self (carrying p) i _

theorem cutStart_planWork (kind : CutKind) (p : Part) : PlanWork p (cutStart kind p) := by
  rcases hi : p.activeSlot with _ | i
  · rw [cutStart_idle hi]
    rfl
  obtain ⟨r, hr, -⟩ := (isActive_iff p i).mp (activeSlot_isActive hi)
  by_cases href : r.reference = .none
  · rw [cutStart_reference hi hr href]
    rfl
  rcases he : p.cutEntry r kind with _ | e
  · rw [cutStart_placed hi hr href he]
    rfl
  · rw [cutStart_entry hi hr href he]
    exact .since (handOver_handed _ _ _).planWork rfl

/-- A cut that starts with the feed in CUT_WAIT leaves feed and link, the held entry aside. -/
theorem cutStart_cutWait (kind : CutKind) {p : Part} (h : p.feed.state = .cutWait) :
    (cutStart kind p).feed = { p.feed with held := (cutStart kind p).feed.held } ∧ (cutStart kind p).link = p.link := by
  rcases hi : p.activeSlot with _ | i
  · rw [cutStart_idle hi]
    exact ⟨rfl, rfl⟩
  obtain ⟨r, hr, -⟩ := (isActive_iff p i).mp (activeSlot_isActive hi)
  by_cases href : r.reference = .none
  · rw [cutStart_reference hi hr href]
    exact ⟨rfl, rfl⟩
  rcases he : p.cutEntry r kind with _ | e
  · rw [cutStart_placed hi hr href he]
    exact ⟨rfl, rfl⟩
  · rw [cutStart_entry hi hr href he, handOver_none_cutWait _ (by exact h)]
    exact ⟨rfl, rfl⟩

/-! ### The saw advances for a waiting feed -/

/-- No hold comes into force at the end of an event: feed and conditions stand. -/
theorem conclude_unheld (b : Part) {p : Part} (pend : p.boot.resetPending = none ∨ p.link.busOff = false)
    (h : p.holdPasses = false) : (conclude b p).feed = p.feed ∧ (conclude b p).link.conditions = p.link.conditions := by
  rw [conclude_eq, resetInBusOff_idle pend, holdTest_idle h, concludeRest_eq]
  exact ⟨rfl, rfl⟩

/-- No hold comes where the feed neither feeds nor approaches. -/
theorem holdPasses_of_state {p : Part} {st : FeedState} (h : p.feed.state = st) (hf : st ≠ .feed) (ha : st ≠ .approach) :
    p.holdPasses = false :=
  holdPasses_of_still fun k => k.elim (fun k => hf (h ▸ k)) fun k => ha (h ▸ k)

/-- The part with the bar on its way out under a cycle record. -/
def advancingUnder (c : Cycle) (p : Part) : Part :=
  { p with saw := { p.saw with state := .advancing, cycle := some c, cutTimer := some 0, returnTimer := none } }

/-- The part with another send list. -/
def Part.listing (l : List SendItem) (p : Part) : Part := { p with link := { p.link with sendList := l } }

/-- From `x`, a part whose feed waits in CUT_WAIT, to `q` the saw has advanced under a cycle record and its cut has started; the feed
waits on and no condition is raised. -/
structure Advanced (c : Cycle) (x q : Part) : Prop where
  feed : q.feed = { x.feed with held := q.feed.held }
  saw : q.saw = (advancingUnder c x).saw
  conditions : q.link.conditions = x.link.conditions
  started : CutStarted c.kind x q

theorem sawAdvances_open (c : Cycle) {p : Part} (h : p.pins.endOfStroke = false) :
    sawAdvances c p = cutStart c.kind (advancingUnder c p) := by
  simp [sawAdvances, h]
  rfl

/-- With the end-of-stroke switch open the saw advances and stays out, and nothing follows at the feed. -/
theorem sawAdvances_advanced (b : Part) (c : Cycle) (l : List SendItem) {x : Part} (wait : x.feed.state = .cutWait)
    (stroke : x.pins.endOfStroke = false) (pend : x.boot.resetPending = none ∨ x.link.busOff = false) :
    Advanced c x (conclude b ((sawAdvances c x).listing l)) := by
  rw [sawAdvances_open c stroke]
  obtain ⟨feed, link⟩ := cutStart_cutWait c.kind (p := advancingUnder c x) wait
  have work := cutStart_planWork c.kind (advancingUnder c x)
  have started := cutStart_started c.kind (advancingUnder c x)
  set y := cutStart c.kind (advancingUnder c x)
  have state : (y.listing l).feed.state = .cutWait := by
    change y.feed.state = _
    rw [feed]
    exact wait
  have pend' : (y.listing l).boot.resetPending = none ∨ (y.listing l).link.busOff = false := by
    change y.boot.resetPending = none ∨ y.link.busOff = false
    rw [work.boot, work.busOff]
    exact pend
  have fol := conclude_follows b pend'
  obtain ⟨hfeed, hcond⟩ := conclude_unheld b pend' (holdPasses_of_state state (by simp) (by simp))
  exact
    { feed := by
        rw [hfeed]
        exact feed
      saw := fol.saw.trans work.saw
      conditions := by
        rw [hcond]
        change y.link.conditions = _
        rw [link]
        rfl
      started := by
        refine (started.begun rfl rfl).seen (fol := ?_) (by rw [hfeed]; rfl)
        exact Follows.trans (by rfl) fol }

/-- A waiting request that the saw takes (06 R126). -/
theorem offerRequest_takes {p : Part} {k : CutKind} (state : p.feed.state = .cutWait) (request : p.feed.request = .waiting k)
    (takes : p.saw.state.takes k = true) : offerRequest p = sawTakes k p := by
  simp [offerRequest, state, request, takes]

theorem offerRequest_idle {p : Part} (h : ∀ k, p.feed.request ≠ .waiting k) : offerRequest p = p := by
  unfold offerRequest
  split
  next k _ hk => exact absurd hk (h k)
  next => rfl

end Sys2Proof.Machine
end

section
namespace Sys2Proof.Machine

/-! ### A request taken up -/

/-- The cycle record of a cut of the part at its first attempt (06 R126). -/
def partCycle (k : CutKind) : Cycle :=
  { owner := .part, kind := k, attempt := 1, cause := none, completionSeen := false, commanded := false, fromFault := false }

/-- From `w`, whose feed waits with a request of a kind, to `q` the saw has taken the request and its cut has started. -/
structure TakenUp (k : CutKind) (w q : Part) : Prop where
  feed : q.feed = { w.feed with request := .taken k, pendingDirect := false, held := q.feed.held }
  saw : q.saw = { w.saw with state := .advancing, cycle := some (partCycle k), cutTimer := some 0, returnTimer := none }
  conditions : q.link.conditions = w.link.conditions
  started : CutStarted k w q

/-- A waiting request that the saw takes, with the end-of-stroke switch open, seen once the event is over. -/
theorem offerRequest_takenUp (b : Part) (l : List SendItem) {w : Part} {k : CutKind} (state : w.feed.state = .cutWait)
    (request : w.feed.request = .waiting k) (takes : w.saw.state.takes k = true) (stroke : w.pins.endOfStroke = false)
    (pend : w.boot.resetPending = none ∨ w.link.busOff = false) :
    TakenUp k w (conclude b ((offerRequest w).listing l)) := by
  rw [offerRequest_takes state request takes]
  have adv := sawAdvances_advanced b (partCycle k) l
    (x := { w with feed := { w.feed with request := .taken k, pendingDirect := false } }) state stroke pend
  exact ⟨adv.feed, adv.saw, adv.conditions, adv.started.begun rfl rfl⟩

/-- The part whose feed has entered CUT_WAIT with its request, before the saw is offered it (05 R104). -/
def waitingToCut (p : Part) : Part :=
  { enterFeed .cutWait p with
    feed := { (enterFeed .cutWait p).feed with request := .waiting (enterFeed .cutWait p).feed.requestKind } }

theorem waitingToCut_feedOnly (p : Part) : FeedOnly p (waitingToCut p) :=
  (enterFeed_feedOnly .cutWait p).trans (.of_feed _ _)

theorem waitingToCut_state (p : Part) : (waitingToCut p).feed.state = .cutWait := enterFeed_state .cutWait p

theorem waitingToCut_link (p : Part) : (waitingToCut p).link = p.link := enterFeed_link (by simp) p

theorem waitingToCut_corrections (p : Part) : (waitingToCut p).feed.corrections = p.feed.corrections :=
  enterFeed_corrections .cutWait p

theorem waitingToCut_stallOut (p : Part) : (waitingToCut p).feed.stallOut = p.feed.stallOut := enterFeed_stallOut (by simp) p

theorem waitingToCut_request (p : Part) : (waitingToCut p).feed.request = .waiting p.feed.requestKind := by
  simp [waitingToCut, Feed.requestKind]

theorem waitingToCut_cutAsLies {p : Part} (h : p.feed.state = .settle) : (waitingToCut p).feed.cutAsLies = false := by
  simp [waitingToCut, enterFeed_feed, h, Feed.enter]

/-! ### CUT NOW -/

/-- The part with a direct cut pending (05 R113). -/
def directed (p : Part) : Part := { p with feed := { p.feed with pendingDirect := true, stallOut := false } }

theorem motion_cases {st : FeedState} (h : st.motion = true) :
    st = .feed ∨ st = .approach ∨ st = .seek ∨ (∃ d, st = .correct d) ∨ ∃ ph, st = .recover ph := by
  cases st <;> simp [FeedState.motion, FeedState.heading] at h ⊢

theorem cutNow_motion {p : Part} (h : p.feed.state.motion = true) : cutNow p = enterFeed .settle (directed p) := by
  unfold cutNow
  rcases motion_cases h with h | h | h | ⟨d, h⟩ | ⟨ph, h⟩ <;> rw [h] <;> rfl

theorem cutNow_settle {p : Part} (h : p.feed.state = .settle) : cutNow p = directed p := by
  unfold cutNow
  rw [h]
  rfl

theorem cutNow_still {p : Part} (h : p.feed.state = .idle ∨ p.feed.state = .grip ∨ p.feed.state = .stalled) :
    cutNow p = goCutWait (directed p) := by
  unfold cutNow
  rcases h with h | h | h <;> rw [h] <;> rfl

theorem cutNow_waiting {p : Part} {k : CutKind} (h : p.feed.state = .cutWait) (hk : p.feed.request = .waiting k) :
    cutNow p = offerRequest { p with feed := { (directed p).feed with request := .waiting .direct } } := by
  unfold cutNow
  rw [h]
  dsimp only
  rw [hk]
  rfl

/-- A feed at rest, or one whose request still waits, offers a DIRECT request to the saw at once (05 R114). -/
theorem cutNow_rest {p : Part} (h : p.feed.state = .idle ∨ p.feed.state = .grip ∨ p.feed.state = .stalled
      ∨ (p.feed.state = .cutWait ∧ ∃ k, p.feed.request = .waiting k)) :
    ∃ w, cutNow p = offerRequest w ∧ FeedOnly p w ∧ w.link = p.link ∧ w.feed.state = .cutWait
      ∧ w.feed.request = .waiting .direct ∧ w.feed.stallOut = false ∧ w.feed.corrections = p.feed.corrections := by
  by_cases wait : p.feed.state = .cutWait
  · obtain ⟨k, hk⟩ : ∃ k, p.feed.request = .waiting k := by simpa [wait] using h
    exact ⟨_, cutNow_waiting wait hk, .of_feed p _, rfl, wait, rfl, rfl, rfl⟩
  · exact ⟨_, cutNow_still (by simpa [wait] using h), (FeedOnly.of_feed p _).trans (waitingToCut_feedOnly _), waitingToCut_link _,
      waitingToCut_state _, waitingToCut_request _, waitingToCut_stallOut _, waitingToCut_corrections _⟩

theorem doCutNow_taken (args : List Byte) {p : Part} (works : p.monitor.profile.works = true) (active : p.hasActive = true)
    (free : p.monitor.takeover.inForce = false) (saw : p.saw.state.refusesCut = false) (direct : p.feed.pendingDirect = false) :
    doCutNow args p = accept [] (cutNow p) := by
  simp [doCutNow, works, active, free, saw, direct]

/-- A granted CUT NOW is handled by `cutNow`, with the saw at rest and no direct cut pending (05 R113). -/
theorem cutNow_granted {s : State} {tag : Byte} {args : List Byte} {rest : List (List Byte)}
    (h : s.part.granted 0x08 tag args rest) :
    let q := conclude s.part (answered s.part.link.sendList (okAnswer 0x08 tag []) (cutNow (s.part.handed rest)))
    (Runs .cutNow s q ∧ s.part.replies q (okAnswer 0x08 tag []) rest) ∧ s.part.saw.state.takes .direct = true := by
  have ht : firstFailing [(!s.part.monitor.profile.works, AnswerCode.wrongState), (!s.part.hasActive, .noSuchStem),
      (s.part.monitor.takeover.inForce, .wrongState),
      (s.part.saw.state != .parked && s.part.saw.state != .fault, .busy), (s.part.feed.pendingDirect, .busy)] = none := h.2.2
  obtain ⟨works, active, free, saw, direct, -⟩ := by simpa only [firstFailing_none] using ht
  have atRest : s.part.saw.state = .parked ∨ s.part.saw.state = .fault := by
    rcases hs : s.part.saw.state <;> simp [hs] at saw ⊢
  exact ⟨granted_accepts h (by decide) (by decide) (doCutNow_taken args (p := s.part.handed rest) ((Bool.not_eq_false' _).mp works)
    ((Bool.not_eq_false' _).mp active) free (by rcases atRest with e | e <;> exact e ▸ rfl) direct),
    by rcases atRest with e | e <;> rw [e] <;> rfl⟩

theorem answered_listing (old : List SendItem) (a : Answer) (p : Part) :
    answered old a p = p.listing (old ++ .answer a :: p.link.sendList) := rfl

/-- Settles O19: `cutNow` by the feed's state; the cut of a feed at rest is `offerRequest_takenUp`. -/
theorem cutNowAsksForACutAtOnce : Obligations.CutNowAsksForACutAtOnce := by
  intro s tag args rest hs h
  obtain ⟨⟨⟨hon, hpend, hlen, -⟩, -⟩, -⟩ := id h
  obtain ⟨⟨run, replies⟩, takes⟩ := cutNow_granted h
  refine ⟨fun hm => ?_, fun hset => ?_, fun hrest hstroke => ?_⟩
  · rw [cutNow_motion (by exact hm)] at run replies
    set x := enterFeed .settle (directed (s.part.handed rest)) with hx
    have only := enterFeed_feedOnly .settle (directed (s.part.handed rest))
    have feed : x.feed = (directed s.part).feed.enter .settle s.part.length.head := by
      rw [hx, enterFeed_feed, if_neg]
      · rfl
      · intro e
        rw [show (directed (s.part.handed rest)).feed.state = s.part.feed.state from rfl] at e
        rw [← e] at hm
        cases hm
    have pend : (answered s.part.link.sendList (okAnswer 0x08 tag []) x).boot.resetPending = none := by
      rw [answered_boot, only.boot]
      exact hpend
    obtain ⟨hfeed, hcond⟩ := conclude_unheld s.part (.inl pend)
      (holdPasses_of_state (st := .settle) (by rw [answered_feed, feed]; rfl) (by simp) (by simp))
    refine ⟨_, run, replies, ?_⟩
    rw [hfeed, hcond, answered_feed, answered_link_conditions, feed]
    refine ⟨rfl, rfl, rfl, rfl, rfl, rfl, rfl, by rw [hx, enterFeed_link (by simp)]; rfl, ?_⟩
    refine Follows.trans ?_ ((only.follows.trans (.of_answered _ _ _)).trans (conclude_follows s.part (.inl pend)))
    rfl
  · rw [cutNow_settle (by exact hset)] at run
    have q := hs.quiet hon
    have quiet : Quiet (directed s.part) :=
      ⟨q.pending, q.holds, q.drop, q.slip, q.ready, q.knife, q.image, q.refresh, q.list⟩
    have e := quiet.conclude_answered s.part rfl rfl (okAnswer 0x08 tag []) rest hlen
    exact e ▸ run
  · obtain ⟨w, eq, only, link, state, request, stall, corr⟩ := cutNow_rest (p := s.part.handed rest) hrest
    have work := cutNow_headWork (s.part.handed rest)
    rw [eq] at run replies work
    have taken := offerRequest_takenUp s.part
      (s.part.link.sendList ++ .answer (okAnswer 0x08 tag []) :: (offerRequest w).link.sendList) state request
      (by rw [only.saw]; exact takes) (by rw [only.pins]; exact hstroke) (.inl (by rw [only.boot]; exact hpend))
    rw [← answered_listing] at taken
    have pend : (answered s.part.link.sendList (okAnswer 0x08 tag []) (offerRequest w)).boot.resetPending = none := by
      rw [answered_boot, (offerRequest_works w).boot, only.boot]
      exact hpend
    refine ⟨_, run, replies, by rw [taken.feed]; exact state, by rw [taken.feed], by rw [taken.feed], by rw [taken.feed]; exact stall,
      by rw [taken.saw], by rw [taken.saw], by rw [taken.saw], by rw [taken.saw]; rfl, ?_, by rw [taken.conditions, link]; rfl, ?_⟩
    · exact taken.started.begun (by rw [only]; rfl) corr
    · refine HeadWork.trans ?_ ((work.trans (Follows.of_answered _ _ _).headWork).trans (conclude_follows s.part (.inl pend)).headWork)
      rfl

end Sys2Proof.Machine
end

section
namespace Sys2Proof.Machine

/-! ### A feed that has decided -/

/-- A feed in the state of its decision is in that of its decision once the hold test is made: a hold makes it decide again. -/
theorem holdTest_decides {p : Part} (h : p.feed.state = p.decision) : (holdTest p).feed.state = (holdTest p).decision := by
  rcases k : p.holdPasses
  · rw [holdTest_idle k, h]
  · rw [holdTest, if_pos k]
    exact holdComes_decides (((holdPasses_iff p).mp k).2.1.elim .inl fun a => .inr (.inl a))

/-- The same once the event is over. -/
theorem conclude_decides (b : Part) {p : Part} (pend : p.boot.resetPending = none ∨ p.link.busOff = false)
    (h : p.feed.state = p.decision) : (conclude b p).feed.state = (conclude b p).decision := by
  have same := conclude_sameFed b pend
  rw [same.feed, same.decision]
  exact holdTest_decides h

/-! ### The end of a settle -/

/-- The part with OVERSHOOT raised where the stem lies beyond the window (05 R101). -/
def overshooting (p : Part) : Part := if p.beyondWindow then raise .overshoot p else p

theorem overshooting_feedOnly (p : Part) : FeedOnly p (overshooting p) := by
  unfold overshooting
  split
  · exact .of_raise _ _
  · exact .rfl p

theorem overshooting_feed (p : Part) : (overshooting p).feed = p.feed := by
  unfold overshooting
  split <;> rfl

theorem overshooting_raises (p : Part) :
    (p.beyondWindow = true → (overshooting p).raised .overshoot = true)
      ∧ RaisesOnly (if p.beyondWindow then [.overshoot] else []) p (overshooting p) := by
  unfold overshooting
  rcases p.beyondWindow
  · exact ⟨nofun, .of_conditions rfl⟩
  · exact ⟨fun _ => by simp, .of_raise (by simp) p⟩

section Settling

variable {p : Part} (state : p.feed.state = .settle)
include state

/-- With nothing held the feed decides afresh (05 R101). -/
theorem settleEnds_decides (direct : p.feed.pendingDirect = false) (held : p.feed.held = none) : settleEnds p = feedDecide p := by
  simp [settleEnds, state, direct, held]

/-- Outside the window with corrections left the feed corrects toward the target (05 R102). -/
theorem settleEnds_corrects {e : HeldEntry} {pos : Int} (direct : p.feed.pendingDirect = false) (held : p.feed.held = some e)
    (hp : p.logMm = some pos) (lies : p.feed.cutAsLies = false) (few : p.feed.corrections < 2)
    (out : pos < e.target - e.minus ∨ e.target + e.plus < pos) :
    settleEnds p = correctToward (if pos < e.target then .forward else .reverse) p := by
  have outside : ¬(e.target - e.minus ≤ pos ∧ pos ≤ e.target + e.plus) := by omega
  simp only [settleEnds, state, direct, held, hp, lies, few, outside, Option.getD_some, Bool.false_eq_true, if_true, if_false]

/-- A pending direct cut is cut where the stem lies (05 R101). -/
theorem settleEnds_direct (direct : p.feed.pendingDirect = true) : settleEnds p = settleCuts p := by
  simp [settleEnds, state, direct]

/-- Marked to be cut as it lies, corrected twice or in its window the stem is cut (05 R101). -/
theorem settleEnds_cuts {e : HeldEntry} {pos : Int} (direct : p.feed.pendingDirect = false) (held : p.feed.held = some e)
    (hp : p.logMm = some pos) (cuts : p.feed.cutAsLies = true ∨ 2 ≤ p.feed.corrections
      ∨ (e.target - e.minus ≤ pos ∧ pos ≤ e.target + e.plus)) : settleEnds p = settleCuts p := by
  have within : e.target - e.minus ≤ pos ∧ pos ≤ e.target + e.plus → goCutWait p = settleCuts p := fun h => by
    have inside : p.beyondWindow = false := by
      simp only [Part.beyondWindow, held, hp, decide_eq_false_iff_not]
      omega
    simp [settleCuts, inside]
  simp only [settleEnds, state, direct, held, hp, Option.getD_some, Bool.false_eq_true, if_true, if_false]
  split
  · rfl
  next lies =>
    split
    next inside => exact within inside
    next outside =>
      have many : ¬p.feed.corrections < 2 := by
        have := (cuts.resolve_left lies).resolve_right outside
        omega
      rw [if_neg many]

end Settling

theorem settleCuts_eq (p : Part) : settleCuts p = offerRequest (waitingToCut (overshooting p)) := rfl

/-- SETTLE_TIMER_EXPIRY on a powered part that times a settle. -/
theorem settle_runs {s : State} (hon : s.part.powered = true) (timed : s.part.feed.settle ≠ none) :
    Runs .settleTimerExpiry s (conclude s.part (settleEnds s.part)) :=
  runs_on rfl (perform_on hon (Option.isSome_iff_ne_none.mpr timed))

/-- The feed that begins a correction (05 R102). -/
theorem correctToward_feed (h : Heading) {p : Part} (state : p.feed.state = .settle) : (correctToward h p).feed =
    { p.feed.enter (.correct h) p.length.head with corrections := p.feed.corrections + 1 } := by
  simp [correctToward, enterFeed_feed, state, Feed.enter]

theorem correctToward_feedOnly (h : Heading) (p : Part) : FeedOnly p (correctToward h p) :=
  (enterFeed_feedOnly (.correct h) p).trans (.of_feed _ _)

theorem correctToward_link (h : Heading) (p : Part) : (correctToward h p).link = p.link := enterFeed_link (by simp) p

/-- Settles O47: `settleEnds` by what it finds; the cut is `offerRequest_takenUp`, for the saw is PARKED. -/
theorem settleEndsInCutOrCorrection : Obligations.SettleEndsInCutOrCorrection := by
  intro s hs guarded hon
  have quiet := hs.quiet hon
  refine ⟨fun idle => ?_, fun timed state => ⟨fun held direct => ?_, fun e pos held hp direct lies few out => ?_,
    fun kind stroke why => ?_⟩⟩
  · rcases idle with h | h
    · exact runs_on rfl (perform_off (by simp [h]))
    · by_cases timed : s.part.feed.settle = none
      · exact runs_on rfl (perform_off (by simp [timed]))
      · have run := settle_runs hon timed
        rwa [show settleEnds s.part = s.part by simp [settleEnds, h], quiet.settled] at run
  · have run := settle_runs hon timed
    rw [settleEnds_decides state direct held] at run
    have only := feedDecide_feedOnly s.part
    have pend : (feedDecide s.part).boot.resetPending = none ∨ (feedDecide s.part).link.busOff = false := by
      rw [only.boot, only.busOff]
      exact quiet.pending
    exact ⟨_, run, conclude_decides s.part pend (by rw [feedDecide_state, feedDecide_decision]),
      only.follows.trans (conclude_follows s.part pend)⟩
  · have run := settle_runs hon timed
    rw [settleEnds_corrects state direct held hp lies few out] at run
    set h : Heading := if pos < e.target then .forward else .reverse
    have only := correctToward_feedOnly h s.part
    have feed := correctToward_feed h state
    have pend : (correctToward h s.part).boot.resetPending = none ∨ (correctToward h s.part).link.busOff = false := by
      rw [only.boot, only.busOff]
      exact quiet.pending
    obtain ⟨hfeed, hcond⟩ := conclude_unheld s.part pend
      (holdPasses_of_state (st := .correct h) (by rw [feed]; rfl) (by simp) (by simp))
    refine ⟨_, run, ?_⟩
    rw [hfeed, hcond, feed, correctToward_link]
    exact ⟨rfl, rfl, held, rfl, rfl, only.follows.trans (conclude_follows s.part pend)⟩
  · have run := settle_runs hon timed
    have cuts : settleEnds s.part = settleCuts s.part ∧ s.part.feed.requestKind = kind := by
      rcases why with ⟨direct, rfl⟩ | ⟨direct, rfl, e, pos, held, hp, why⟩
      · exact ⟨settleEnds_direct state direct, by simp [Feed.requestKind, direct]⟩
      · exact ⟨settleEnds_cuts state direct held hp why, by simp [Feed.requestKind, direct]⟩
    rw [cuts.1, settleCuts_eq] at run
    have shoot := overshooting_feedOnly s.part
    have feed := overshooting_feed s.part
    have only := shoot.trans (waitingToCut_feedOnly (overshooting s.part))
    have parked := (guarded.1 (.inr state)).1
    have pend : (waitingToCut (overshooting s.part)).boot.resetPending = none
        ∨ (waitingToCut (overshooting s.part)).link.busOff = false := by
      rw [only.boot, only.busOff]
      exact quiet.pending
    have taken := offerRequest_takenUp s.part (offerRequest (waitingToCut (overshooting s.part))).link.sendList (k := kind)
      (waitingToCut_state _) (by rw [waitingToCut_request, feed, cuts.2]) (by rw [only.saw, parked]; rfl)
      (by rw [only.pins]; exact stroke) pend
    change TakenUp kind _ (conclude s.part (offerRequest (waitingToCut (overshooting s.part)))) at taken
    have conditions := taken.conditions
    rw [waitingToCut_link] at conditions
    have raised : ∀ c, (conclude s.part (offerRequest (waitingToCut (overshooting s.part)))).raised c
        = (overshooting s.part).raised c := fun c => by
      unfold Part.raised
      rw [conditions]
    refine ⟨_, run, by rw [taken.feed]; exact waitingToCut_state _, by rw [taken.feed], by rw [taken.feed], ?_,
      by rw [taken.saw], by rw [taken.saw], by rw [taken.saw]; rfl, ?_, ?_, ?_, ?_⟩
    · rw [taken.feed]
      exact waitingToCut_cutAsLies (by rw [feed]; exact state)
    · exact taken.started.begun (by rw [only]) (by rw [waitingToCut_corrections, feed])
    · refine (only.headWork.trans (offerRequest_headWork _)).concluded s.part ?_
      rw [(offerRequest_works _).boot, (offerRequest_headWork _).busOff]
      exact pend
    · rw [raised]
      exact (overshooting_raises s.part).1
    · exact (overshooting_raises s.part).2.trans (.of_conditions conditions)

end Sys2Proof.Machine
end

section
namespace Sys2Proof.Machine

/-! ### A hand-over in its two parts -/

/-- The part whose blocks have taken what is handed on, before the feed acts (02 R38). -/
def given (e : Option Entry) (fresh : Bool) (p : Part) : Part :=
  { p with
    diameter := p.diameter.take p.length.logPos e
    feed := p.feed.take e fresh
    monitor := { p.monitor with guidance := p.monitor.guidance.take e } }

/-- The part once the feed has acted on it (05 R116). -/
def reacted (e : Option Entry) (fresh : Bool) (p : Part) : Part := feedReact e.isSome (given e fresh p)

theorem reacted_feedOnly (e : Option Entry) (fresh : Bool) (p : Part) : FeedOnly (given e fresh p) (reacted e fresh p) :=
  feedReact_feedOnly _ _

theorem handOver_none (fresh : Bool) (p : Part) : handOver none fresh p = reacted none fresh p := rfl

theorem handOver_some (x : Entry) (fresh : Bool) (p : Part) :
    handOver (some x) fresh p = guidanceTest (reacted (some x) fresh p) := rfl

theorem handOver_beside (e : Option Entry) (fresh : Bool) (p : Part) : Beside (reacted e fresh p) (handOver e fresh p) := by
  cases e with
  | none => exact .rfl _
  | some x => exact guidanceTest_beside _

/-! ### The feed at a hand-over, by its state -/

section Reacts

variable {e : Option Entry} {fresh : Bool} {p : Part}

theorem reacted_grip (h : p.feed.state = .grip) : reacted e fresh p = feedDecide (given e fresh p) := by
  unfold reacted feedReact
  rw [show (given e fresh p).feed.state = .grip from h]

theorem reacted_feed (h : p.feed.state = .feed) (he : e.isSome = true) :
    reacted e fresh p = enterFeed (given e fresh p).placement (given e fresh p) := by
  unfold reacted feedReact
  rw [show (given e fresh p).feed.state = .feed from h, he]
  rfl

theorem reacted_recover {ph : Phase} (h : p.feed.state = .recover ph) (he : e.isSome = true) :
    reacted e fresh p = recoveryCheck (given e fresh p) := by
  unfold reacted feedReact
  rw [show (given e fresh p).feed.state = .recover ph from h, he]
  rfl

/-- With no entry a motion state but SEEK, and SETTLE, decides afresh. -/
theorem reacted_without (h : (p.feed.state.motion = true ∧ p.feed.state ≠ .seek) ∨ p.feed.state = .settle) :
    reacted none fresh p = feedDecide (given none fresh p) := by
  have same : (given none fresh p).feed.state = p.feed.state := rfl
  unfold reacted feedReact
  rw [same]
  rcases hs : p.feed.state <;> simp [hs, FeedState.motion, FeedState.heading] at h ⊢

theorem reacted_keeps (h : p.feed.state = .idle ∨ p.feed.state = .seek ∨ p.feed.state = .cutWait ∨ p.feed.state = .stalled
    ∨ p.feed.state = .manual) : reacted e fresh p = given e fresh p := by
  have same : (given e fresh p).feed.state = p.feed.state := rfl
  unfold reacted feedReact
  rw [same]
  rcases h with h | h | h | h | h <;> rw [h]

end Reacts

theorem decides_state (p : Part) : (feedDecide p).feed.state = (feedDecide p).decision := by
  rw [feedDecide_state, feedDecide_decision]

/-- A feed in GRIP decides afresh at any hand-over. -/
theorem handOver_grip (e : Option Entry) (fresh : Bool) {p : Part} (h : p.feed.state = .grip) :
    (handOver e fresh p).feed.state = (handOver e fresh p).decision := by
  have same := (handOver_beside e fresh p).fed
  rw [same.feed, same.decision, reacted_grip h, decides_state]

theorem placement_still (p : Part) : p.placement.keepsAttempts = false ∧ p.placement ≠ .stalled ∧ p.placement ≠ .recover .forward := by
  rcases placement_cases p with h | h | h | h <;> simp [h, FeedState.keepsAttempts]

/-! ### What a hand-over is seen to have done -/

section Seen

variable {e : Option Entry} {fresh : Bool} {p q : Part}

/-- Where no hold has come the feed is as it reacted. -/
theorem feed_of_unheld (k : SameFed (holdTest (reacted e fresh p)) q) (h : q.diameter.hold = false) :
    q.feed = (reacted e fresh p).feed := by
  have passes : (reacted e fresh p).holdPasses = false := by
    rw [k.hold, holdTest_hold, Bool.or_eq_false_iff] at h
    exact h.2
  rw [k.feed, holdTest_idle passes]

/-- Where the feed neither feeds nor approaches it is as it reacted. -/
theorem feed_of_idle (k : SameFed (holdTest (reacted e fresh p)) q) (h : ¬(reacted e fresh p).feeds) :
    q.feed = (reacted e fresh p).feed := by
  rw [k.feed, holdTest_idle (holdPasses_of_still h)]

/-- A feed that has reacted by deciding afresh is in the state of its decision. -/
theorem decision_of_reacted (k : SameFed (holdTest (reacted e fresh p)) q)
    (h : reacted e fresh p = feedDecide (given e fresh p)) : q.feed.state = q.decision := by
  rw [k.feed, k.decision, h]
  exact holdTest_decides (decides_state _)

/-- The feed has acted on what was handed on, by its state (05 R116). -/
theorem entryFed_of_reacted (k : SameFed (holdTest (reacted e fresh p)) q) : EntryFed e p q := by
  refine ⟨fun h => decision_of_reacted k (reacted_grip h), fun h he hold => ?_, fun he h hne => ?_, fun he h => ?_,
    fun ph h he => ⟨fun keeps => ?_, fun hph succ => ?_⟩, fun h => ?_⟩
  · rw [feed_of_unheld k hold, reacted_feed h he, enterFeed_state]
    rfl
  · subst he
    exact decision_of_reacted k (reacted_without (.inl ⟨h, hne⟩))
  · subst he
    exact decision_of_reacted k (reacted_without (.inr h))
  · have same : reacted e fresh p = given e fresh p := by
      rw [reacted_recover h he]
      refine if_neg fun c => ?_
      rcases keeps with rfl | fails
      · exact absurd (h.symm.trans c.1) (by simp)
      · exact absurd (c.2.symm.trans fails) (by simp)
    rw [feed_of_idle k (by rw [same]; exact fun c => by rcases c with c | c <;> exact absurd (h.symm.trans c) (by simp)), same]
    exact ⟨h, rfl, rfl⟩
  · subst hph
    have same : reacted e fresh p = enterFeed (given e fresh p).placement (given e fresh p) := by
      rw [reacted_recover h he]
      exact if_pos ⟨h, succ⟩
    refine ⟨?_, fun hold => ?_⟩
    · rw [k.feed]
      refine holdTest_attempts_zero ?_
      rw [same]
      exact enterFeed_placement_attempts _ h (placement_still _).1
    · rw [feed_of_unheld k hold, same, enterFeed_state]
      rfl
  · have same := reacted_keeps (e := e) (fresh := fresh) h
    rw [feed_of_idle k, same]
    · rfl
    · rw [same]
      intro c
      have c : p.feed.state = .feed ∨ p.feed.state = .approach := c
      rcases h with h | h | h | h | h <;> simp [h] at c

/-- The minimum-diameter watch has made its test at the hand-over (04 R93). -/
theorem holdTested_of_reacted {t : Part} (k : SameFed (holdTest (reacted e fresh p)) q)
    (raised : q.raised .diamReject = (t.raised .diamReject || (reacted e fresh p).holdPasses)) : HoldTested false t q := by
  have free : (reacted e fresh p).diameter.hold = false := by
    rw [(reacted_feedOnly e fresh p).diameter]
    rfl
  have hold : q.diameter.hold = (reacted e fresh p).holdPasses := by rw [k.hold, holdTest_hold, free, Bool.false_or]
  have thin : q.thin = (reacted e fresh p).thin := k.thin.trans (holdTest_feedAndHold _).thin
  refine ⟨fun _ hthin => ?_, fun _ held => ?_, nofun, fun held => ?_⟩
  · rcases c : (reacted e fresh p).holdPasses
    · have feeds : ¬q.feed.state = .feed ∧ ¬q.feed.state = .approach := by
        rw [k.feed, holdTest_idle c]
        refine not_or.mp fun f => ?_
        rw [(holdPasses_iff _).mpr ⟨thin ▸ hthin, f, free⟩] at c
        cases c
      exact feeds
    · rw [k.feed, holdTest_state c]
      obtain ⟨still, -⟩ := decision_held
        (p := { reacted e fresh p with diameter := { (reacted e fresh p).diameter with hold := true } }) rfl
      constructor <;> intro f <;> rw [f] at still <;> cases still
  · rw [hold] at held
    refine ⟨thin.trans ((holdPasses_iff _).mp held).1, by rw [raised, held, Bool.or_true], ?_⟩
    rw [k.feed, k.decision, holdTest, if_pos held]
    exact holdComes_decides (((holdPasses_iff _).mp held).2.1.elim .inl fun a => .inr (.inl a))
  · rw [raised, ← hold, held, Bool.or_false]

end Seen

/-! ### The guidance at a hand-over -/

theorem atTarget_iff (p : Part) (profile : Profile) (plan : Planned) : p.atTarget profile plan = true ↔
    profile = .measureOnly ∧ p.hasActive = true ∧ ∃ pos, p.logMm = some pos ∧ plan.contains pos = true := by
  unfold Part.atTarget Planned.contains
  rcases p.logMm with _ | pos <;> simp [and_assoc]

/-- The guidance's test marks the window held as announced where the stem lies in it (08 R164). -/
theorem guidanceTest_guidance {p : Part} {x : Nat × Planned} (hl : p.monitor.guidance.last = some x)
    (hw : p.monitor.guidance.window = true) : (guidanceTest p).monitor.guidance =
      { p.monitor.guidance with announced := p.monitor.guidance.announced || p.atTarget p.monitor.profile x.2 } := by
  rcases ha : p.monitor.guidance.announced
  · rcases at_ : p.atTarget p.monitor.profile x.2
    · have idle : guidanceTest p = p := by
        by_cases ready : p.monitor.profile = .measureOnly ∧ p.hasActive = true
        · rcases hp : p.logMm with _ | pos
          · exact guidanceTest_lost (.inr hp)
          · refine guidanceTest_outside hl hp ?_
            by_contra c
            rw [(atTarget_iff p _ x.2).mpr ⟨ready.1, ready.2, pos, hp, by simpa using c⟩] at at_
            cases at_
        · exact guidanceTest_idle fun k => ready ⟨k.1, k.2.1⟩
      rw [idle, Bool.false_or, ← ha]
    · obtain ⟨hprof, hact, pos, hp, hc⟩ := (atTarget_iff p _ x.2).mp at_
      obtain ⟨i, hi⟩ := Option.isSome_iff_exists.mp hact
      obtain ⟨r, hr, -⟩ := (isActive_iff p i).mp (activeSlot_isActive hi)
      rw [guidanceTest_announces hprof hl hi hr hp hw ha hc]
      rfl
  · rw [guidanceTest_idle fun k => by simp [ha] at k, Bool.true_or, ← ha]

/-- Without a profile that works the decision is IDLE, and a hand-over raises nothing. -/
theorem reacted_link {e : Option Entry} {fresh : Bool} {p : Part} (h : p.monitor.profile.works = false) :
    (reacted e fresh p).link = p.link := by
  have keeps : (given e fresh p).link = p.link := rfl
  have decides : (feedDecide (given e fresh p)).link = p.link := by
    refine feedDecide_link ?_
    have works : (given e fresh p).monitor.profile.works = false := h
    unfold Part.decision
    split
    · simp
    · rw [if_pos works]
      simp
  have enters : (enterFeed (given e fresh p).placement (given e fresh p)).link = p.link :=
    enterFeed_link (placement_still _).2.1 _
  have checks : (recoveryCheck (given e fresh p)).link = p.link := by
    unfold recoveryCheck
    split
    · exact enters
    · rfl
  unfold reacted feedReact
  repeat' split
  all_goals assumption

/-! ### The hand-over, seen once a request's event is over -/

/-- The part with another send list and condition word. -/
def Part.posted (l : List SendItem) (w : Word16) (p : Part) : Part :=
  { p with link := { p.link with sendList := l, conditions := w } }

theorem handOver_follows (e : Option Entry) (fresh : Bool) (p : Part) :
    Follows { given e fresh p with monitor := (handOver e fresh p).monitor } (handOver e fresh p) := by
  have only := reacted_feedOnly e fresh p
  cases e with
  | none =>
    rw [handOver_none, only.monitor]
    exact only.follows
  | some x =>
    rw [handOver_some]
    have fol := only.follows
    unfold guidanceTest
    split
    · split
      · unfold Follows at *
        rw [fol]
        rfl
      · rw [only.monitor]
        exact fol
    · rw [only.monitor]
      exact fol

end Sys2Proof.Machine
end

section
namespace Sys2Proof.Machine

/-! ### A request's hand-over -/

/-- The part at the end of a hand-over made while a request is handled, its answer placed; `l` and `w` are the notices and the
conditions with which the handling came to it. -/
def handedEnd (b : Part) (e : Option Entry) (fresh : Bool) (a : Answer) (l : List SendItem) (w : Word16) (p : Part) : Part :=
  conclude b (answered p.link.sendList a (handOver e fresh (p.posted l w)))

section Ends

variable {e : Option Entry} {fresh : Bool} {a : Answer} {l : List SendItem} {w : Word16} {p : Part} (b : Part)
  (pend : p.boot.resetPending = none)
include pend

theorem handedEnd_pending : (answered p.link.sendList a (handOver e fresh (p.posted l w))).boot.resetPending = none := by
  rw [answered_boot, (handOver_works e fresh (p.posted l w)).boot]
  exact pend

theorem handedEnd_beside : Beside (holdTest (reacted e fresh (p.posted l w))) (handedEnd b e fresh a l w p) := by
  have done : Beside (handOver e fresh (p.posted l w)) (answered p.link.sendList a (handOver e fresh (p.posted l w))) :=
    ⟨⟨rfl, rfl, rfl, rfl, rfl, rfl, rfl, rfl, rfl, rfl, rfl, rfl⟩, fun _ _ => rfl, rfl, rfl, rfl, rfl, rfl, rfl, rfl, rfl⟩
  exact ((handOver_beside e fresh (p.posted l w)).trans done).holdTest.trans (conclude_beside b (.inl (handedEnd_pending pend)))

theorem handedEnd_follows :
    Follows { given e fresh p with monitor := (handOver e fresh (p.posted l w)).monitor } (handedEnd b e fresh a l w p) := by
  refine Follows.trans ?_ (((handOver_follows e fresh (p.posted l w)).trans (.of_answered _ _ _)).trans
    (conclude_follows b (.inl (handedEnd_pending pend))))
  rfl

theorem handedEnd_diamReject (clear : (p.posted l w).raised .diamReject = p.raised .diamReject) :
    (handedEnd b e fresh a l w p).raised .diamReject
      = (p.raised .diamReject || (reacted e fresh (p.posted l w)).holdPasses) := by
  rw [(handedEnd_beside b pend).raised _ (by decide), holdTest_raised _ (by decide), decide_eq_true rfl, Bool.and_true]
  refine congrArg (· || _) (Eq.trans ?_ clear)
  exact ((feedReact_works _ _).raises .diamReject).2 (by decide)

theorem handedEnd_raises : RaisesOnly endRaises (p.posted l w) (handedEnd b e fresh a l w p) :=
  (((handOver_works e fresh (p.posted l w)).raises.mono (by simp [endRaises])).trans (.of_conditions rfl)).trans
    (conclude_raises b (.inl (handedEnd_pending pend)))

theorem handedEnd_held : (handedEnd b e fresh a l w p).feed.held = e.map Entry.heldEntry := by
  rw [handedEnd, conclude_feed b (.inl (handedEnd_pending pend))]
  simp

theorem handedEnd_corrections :
    (handedEnd b e fresh a l w p).feed.corrections = if fresh && e.isSome then 0 else p.feed.corrections := by
  rw [handedEnd, conclude_feed b (.inl (handedEnd_pending pend))]
  simp [Part.posted]

theorem handedEnd_guidance :
    (handedEnd b e fresh a l w p).monitor.guidance = (handOver e fresh (p.posted l w)).monitor.guidance := by
  rw [handedEnd_follows b pend]

end Ends

/-! ### The guidance after a hand-over -/

theorem handOver_none_guidance (fresh : Bool) (p : Part) :
    (handOver none fresh p).monitor.guidance = { p.monitor.guidance with window := false } := by
  rw [handOver_none, (reacted_feedOnly none fresh p).monitor]
  rfl

theorem take_some_guidance (g : Guidance) (x : Entry) : g.take (some x) =
    { window := true, last := some (x.ident, x.plan), announced := g.last == some (x.ident, x.plan) && g.announced } := by
  unfold Guidance.take
  by_cases h : g.last = some (x.ident, x.plan) <;> simp [h]

theorem reacted_atTarget (e : Option Entry) (fresh : Bool) (p : Part) (profile : Profile) (plan : Planned) :
    (reacted e fresh p).atTarget profile plan = p.atTarget profile plan := by
  rw [reacted_feedOnly e fresh p]
  rfl

theorem reacted_monitor (e : Option Entry) (fresh : Bool) (p : Part) :
    (reacted e fresh p).monitor = { p.monitor with guidance := p.monitor.guidance.take e } :=
  (reacted_feedOnly e fresh p).monitor

theorem handOver_some_guidance (x : Entry) (fresh : Bool) (p : Part) : (handOver (some x) fresh p).monitor.guidance =
    { window := true, last := some (x.ident, x.plan)
      announced := (p.monitor.guidance.last == some (x.ident, x.plan) && p.monitor.guidance.announced)
        || p.atTarget p.monitor.profile x.plan } := by
  have taken : (reacted (some x) fresh p).monitor.guidance = _ :=
    (congrArg Monitor.guidance (reacted_monitor _ fresh p)).trans (take_some_guidance _ x)
  rw [handOver_some, guidanceTest_guidance (x := (x.ident, x.plan)) (by rw [taken]) (by rw [taken]), reacted_atTarget, taken,
    reacted_monitor]

/-- In MEASURE_ONLY an entry within whose window the stem lies is announced behind the notices that stand (08 R164). -/
theorem handOver_announces {x : Entry} {fresh : Bool} {p : Part} {pos : Int} {i : Fin 8} {r : Record} (hp : p.logMm = some pos)
    (new : (p.monitor.guidance.last == some (x.ident, x.plan) && p.monitor.guidance.announced) = false)
    (at_ : p.atTarget p.monitor.profile x.plan = true) (hi : p.activeSlot = some i) (hr : p.recordAt i = some r) :
    (handOver (some x) fresh p).link.sendList = p.link.sendList ++ [.notice (.atTarget (p.stemId i)
      ((indexOf x.ident r.entries).getD 0) r.revision x.plan.target x.plan.minus x.plan.plus pos)] := by
  obtain ⟨hprof, -, pos', hp', hc⟩ := (atTarget_iff p _ x.plan).mp at_
  obtain rfl := Option.some.inj (hp.symm.trans hp')
  have only := reacted_feedOnly (some x) fresh p
  have mon := reacted_monitor (some x) fresh p
  rw [take_some_guidance, new] at mon
  rw [handOver_some, guidanceTest_announces (x := (x.ident, x.plan)) (i := i) (r := r) (pos := pos) (by rw [mon]; exact hprof)
    (by rw [mon]) (by rw [only]; exact hi) (by rw [only]; exact hr) (by rw [only]; exact hp) (by rw [mon]) (by rw [mon]) hc]
  have link := reacted_link (e := some x) (fresh := fresh) (p := p) (by rw [hprof]; rfl)
  unfold place
  dsimp only
  rw [link, only]
  rfl

/-! ### The hand-over of a request -/

section Handed

variable {e : Option Entry} {fresh : Bool} {a : Answer} {l : List SendItem} {w : Word16} {p : Part} (b : Part)
  (pend : p.boot.resetPending = none) (short : l.length ≤ 1)

include pend short in
theorem handedEnd_atTarget {x : Entry} {pos : Int} (hp : p.logMm = some pos)
    (new : (p.monitor.guidance.last == some (x.ident, x.plan) && p.monitor.guidance.announced) = false)
    (at_ : p.atTarget p.monitor.profile x.plan = true) (bus : p.link.busOff = false) (room : p.link.sendList.length < 14) :
    AtTargetSent x.ident x.plan pos p (handedEnd b (some x) fresh a l w p) := by
  intro i r hi hr
  have list := handOver_announces (x := x) (fresh := fresh) (p := p.posted l w) hp new at_ hi hr
  have off : (answered p.link.sendList a (handOver (some x) fresh (p.posted l w))).link.busOff = false :=
    (handOver_follows (some x) fresh (p.posted l w)).busOff.trans bus
  refine (conclude_keeps_prefix b (.inl (handedEnd_pending pend)) off (List.prefix_refl _) ?_).subset ?_
  · rw [answered_listing, list]
    simp [Part.listing, Part.posted]
    omega
  · rw [answered_listing, list]
    exact List.mem_append_right _ (List.mem_cons_of_mem _ (List.mem_append_right _ (List.mem_singleton.mpr rfl)))

include pend short in
/-- A hand-over made while a request is handled has handed the entry on, seen once the event is over. -/
theorem handedEnd_handedOn (clear : (p.posted l w).raised .diamReject = p.raised .diamReject) :
    HandedOn e fresh p (handedEnd b e fresh a l w p) := by
  have fol := handedEnd_follows (e := e) (fresh := fresh) (a := a) (l := l) (w := w) b pend
  have fed := (handedEnd_beside (e := e) (fresh := fresh) (a := a) (l := l) (w := w) b pend).fed
  have guidance := handedEnd_guidance (e := e) (fresh := fresh) (a := a) (l := l) (w := w) b pend
  have monitor : (handOver e fresh (p.posted l w)).monitor
      = { p.monitor with guidance := (handOver e fresh (p.posted l w)).monitor.guidance } :=
    congrArg Part.monitor (handOver_handed e fresh (p.posted l w))
  refine ⟨?_, holdTested_of_reacted fed (handedEnd_diamReject b pend clear), ?_, fun he => ?_, fun x he => ?_,
    handedEnd_held b pend, handedEnd_corrections b pend, entryFed_of_reacted (p := p.posted l w) fed⟩
  · rw [guidance]
    rw [monitor] at fol
    refine Follows.trans ?_ fol
    cases e <;> rfl
  · rw [guidance]
    cases e with
    | none => rw [handOver_none_guidance]; rfl
    | some x => rw [handOver_some_guidance]; rfl
  · subst he
    rw [guidance, handOver_none_guidance]
    exact ⟨rfl, rfl⟩
  · subst he
    rw [guidance, handOver_some_guidance]
    exact ⟨rfl, rfl, fun pos hp new at_ bus room => handedEnd_atTarget b pend short hp new at_ bus room⟩

end Handed

end Sys2Proof.Machine
end

section
namespace Sys2Proof.Machine

/-! ### Lists after an amendment -/

theorem findState_isNone (st : EntryState) (es : List Entry) : (findState st es).isNone = es.all (·.state != st) := by
  induction es with
  | nil => rfl
  | cons x xs ih =>
    by_cases h : x.state = st
    · simp [findState, h]
    · simp [findState, h, ih]

theorem armFirst_none (es : List Entry) : armFirst es = none ↔ ∀ x ∈ es, x.state ≠ .pending := by
  induction es with
  | nil => simp [armFirst]
  | cons x xs ih => by_cases h : x.state = .pending <;> simp [armFirst, h, ih]

theorem armFirst_some_of_mem {x : Entry} {es : List Entry} (h : x ∈ es) (hx : x.state = .pending) :
    ∃ e es', armFirst es = some (e, es') := by
  rcases ha : armFirst es with _ | ⟨e, es'⟩
  · exact absurd hx ((armFirst_none es).mp ha x h)
  · exact ⟨e, es', rfl⟩

/-- With a PENDING entry at the end, that one becomes ARMED where no other is PENDING. -/
theorem armFirst_concat {es : List Entry} {x e : Entry} {es' : List Entry} (hx : x.state = .pending)
    (h : armFirst (es ++ [x]) = some (e, es')) :
    es'.length = es.length + 1
      ∧ es'[es.length]? = some (if armFirst es = none then { x with state := .armed } else x) := by
  induction es generalizing es' with
  | nil =>
    have h : _ = some (e, es') := h
    simp only [armFirst, List.nil_append, hx, if_true, Option.some.injEq, Prod.mk.injEq] at h
    obtain ⟨-, rfl⟩ := h
    simp [armFirst]
  | cons y ys ih =>
    by_cases hy : y.state = .pending
    · simp only [List.cons_append, armFirst, hy, if_true, Option.some.injEq, Prod.mk.injEq] at h
      obtain ⟨-, rfl⟩ := h
      simp [armFirst, hy]
    · simp only [List.cons_append, armFirst, hy, if_false, Option.map_eq_some_iff, Prod.mk.injEq] at h
      obtain ⟨⟨f, fs⟩, hf, rfl, rfl⟩ := h
      obtain ⟨len, at_⟩ := ih hf
      refine ⟨by simp [len], ?_⟩
      rw [List.length_cons, List.getElem?_cons_succ, at_]
      simp [armFirst, hy]

/-- The four conditions of the arming test on a record of the same state whose list shows the same (02 R37). -/
theorem mayArm_congr {r r' : Record} (state : r'.state = r.state) (reference : r'.reference = r.reference)
    (top : r'.topSeen = r.topSeen)
    (list : ∀ st, st = .armed ∨ st = .cutting → r'.entries.all (·.state != st) = r.entries.all (·.state != st)) :
    r'.mayArm = r.mayArm := by
  unfold Record.mayArm Record.established
  rw [state, reference, top, findState_isNone, findState_isNone, findState_isNone, findState_isNone, list _ (.inl rfl),
    list _ (.inr rfl)]

theorem appendEntry_mayArm (r : Record) (plan : Planned) : (r.appendEntry .pending plan).mayArm = r.mayArm := by
  refine mayArm_congr rfl rfl rfl fun st hst => ?_
  rcases hst with rfl | rfl <;> simp [Record.appendEntry]

theorem all_insertIdx {α : Type} (f : α → Bool) {es : List α} {x : α} {k : Nat} (hk : k ≤ es.length) :
    (es.insertIdx k x).all f = (f x && es.all f) := by
  rw [Bool.eq_iff_iff]
  simp [List.mem_insertIdx hk]

theorem insertEntry_pending_mayArm {r : Record} {k : Nat} (plan : Planned) (hk : k ≤ r.entries.length) :
    (r.insertEntry k .pending plan).mayArm = r.mayArm := by
  refine mayArm_congr rfl rfl rfl fun st hst => ?_
  rcases hst with rfl | rfl <;> simp [Record.insertEntry, all_insertIdx _ hk]

theorem mayArm_of_armed {r : Record} {x : Entry} (hx : x ∈ r.entries) (h : x.state = .armed) : r.mayArm = false := by
  have found : (findState .armed r.entries).isNone = false := by
    rw [findState_isNone, List.all_eq_false]
    exact ⟨x, hx, by simp [h]⟩
  simp [Record.mayArm, found]

theorem modify_eq_set {es : List Entry} {k : Nat} {e : Entry} (f : Entry → Entry) (h : es[k]? = some e) :
    es.modify k f = es.set k (f e) := by
  obtain ⟨hk, rfl⟩ := List.getElem?_eq_some_iff.mp h
  rw [List.modify_eq_set_getElem?, List.getElem?_eq_getElem hk]
  rfl

/-! ### Amended records -/

theorem setRecord_setRecord (p : Part) (i : Fin 8) (a b : Option Record) : (p.setRecord i a).setRecord i b = p.setRecord i b := by
  simp [Part.setRecord]

/-- Rewriting a record in its state leaves which slots are ACTIVE. -/
theorem rewritten_activeSlot {p : Part} {i : Fin 8} {r r' : Record} (hr : p.recordAt i = some r) (state : r'.state = r.state) :
    (p.setRecord i (some r')).activeSlot = p.activeSlot := by
  refine activeSlot_congr fun j => ?_
  rcases eq_or_ne j i with rfl | hj
  · rw [Part.isActive, Part.isActive, recordAt_setRecord_self, hr]
    exact congrArg (· == RecordState.active) state
  · exact isActive_congr (recordAt_setRecord_ne p hj.symm _)

/-- Rewriting a record in its state and of its species leaves the species in use. -/
theorem rewritten_inUse {p : Part} {i : Fin 8} {r r' : Record} (hr : p.recordAt i = some r) (state : r'.state = r.state)
    (species : r'.species = r.species) : (p.setRecord i (some r')).inUse = p.inUse := by
  have slot := rewritten_activeSlot hr state
  unfold Part.inUse
  rcases hs : p.activeSlot with _ | j
  · rw [hs] at slot
    simp [Part.activeRecord, slot, hs]
  · rw [hs] at slot
    rw [activeRecord_of_slot hs, activeRecord_of_slot slot]
    rcases eq_or_ne j i with rfl | hj
    · rw [recordAt_setRecord_self, hr]
      exact congrArg (fun k => some p.store.working.species[k]) species
    · rw [recordAt_setRecord_ne p hj.symm]
      rfl

/-- A quiet part stays quiet where a record is rewritten in its state and of its species: the end of an event reads of the table
no more than whether a record is ACTIVE and the species in use. -/
theorem Quiet.rewritten {p : Part} (h : Quiet p) {i : Fin 8} {r r' : Record} (hr : p.recordAt i = some r)
    (state : r'.state = r.state) (species : r'.species = r.species) : Quiet (p.setRecord i (some r')) := by
  set q := p.setRecord i (some r') with hq
  have active : q.hasActive = p.hasActive := congrArg Option.isSome (rewritten_activeSlot hr state)
  have inUse : q.inUse = p.inUse := rewritten_inUse hr state species
  have value : ∀ f, q.speciesValue f = p.speciesValue f := fun f => by rw [Part.speciesValue, inUse]; rfl
  have gone : q.stemGone = p.stemGone := by rw [Part.stemGone, active]; rfl
  have slips : q.slipRuns = p.slipRuns := by rw [Part.slipRuns, active]; rfl
  have knife : q.nextKnife = p.nextKnife := by
    simp only [Part.nextKnife, Part.knifeState, Part.knifePressure, Part.computedPressure, Part.clampPressure, value, active]
    rfl
  have image : q.nextImage = p.nextImage := by
    simp only [Part.nextImage, Part.feedDemand, knife, value]
    rfl
  exact ⟨h.pending, h.holds, by rw [gone]; exact h.drop, by rw [slips]; exact h.slip, h.ready, by rw [knife]; exact h.knife,
    by rw [image]; exact h.image, h.refresh, h.list⟩

/-- The amendment result of a record (11.2). -/
def Record.result (r : Record) (index : Nat) (removed : Bool) : List Byte :=
  word16 r.revision ++ u8 r.entries.length ++ u8 index
    ++ [if removed then 0xFF else (r.entries[index]?.map fun e => e.state.code).getD 0xFF]

theorem Record.result_of_entry {r : Record} {n index : Nat} {x : Entry} (len : r.entries.length = n)
    (at_ : r.entries[index]? = some x) :
    r.result index false = word16 r.revision ++ u8 n ++ u8 index ++ [x.state.code] := by
  rw [Record.result, len, at_]
  rfl

theorem amendmentResult_of_record {p : Part} {i : Fin 8} {r : Record} (h : p.recordAt i = some r) (index : Nat) (removed : Bool) :
    amendmentResult p i index removed = r.result index removed := by
  rw [amendmentResult, h]
  rfl

section Amendments

variable {s : State} {code tag : Byte} {args : List Byte} {rest : List (List Byte)} {i : Fin 8} {r r' : Record} {index : Nat}
  {removed : Bool}

/-- A taken amendment that only rewrites the record: its answer joins the send list, and nothing follows. -/
theorem amended_rewrites (hs : Settled s.part) (h : s.part.granted code tag args rest) (hc : code ∈ requestCodes)
    (hr : s.part.recordAt i = some r) (state : r'.state = r.state) (species : r'.species = r.species)
    (hh : handlerOf code args (s.part.handed rest) = amended i index removed ((s.part.handed rest).setRecord i (some r'))) :
    Runs (requestRow code) s
      ((s.part.setRecord i (some r')).withAnswer (okAnswer code tag (r'.result index removed)) rest) := by
  refine runs_request hc ?_
  rw [request_granted h hc, hh, amended, amendmentResult_of_record (recordAt_setRecord_self _ i _)]
  obtain ⟨⟨⟨hon, -, hl, -⟩, -⟩, -⟩ := h
  exact ((hs.quiet hon).rewritten hr state species).conclude_answered s.part rfl rfl _ rest hl

/-- What a taken amendment that hands on is seen to do: `l` and `w` are the notices and the conditions with which it came to the
hand-over. -/
structure AmendedOn (s : State) (code tag : Byte) (rest : List (List Byte)) (i : Fin 8) (r' : Record) (index : Nat)
    (removed : Bool) (e : Option Entry) (fresh : Bool) (l : List SendItem) (w : Word16) (q : Part) : Prop where
  runs : Runs (requestRow code) s q
  replies : s.part.replies q (okAnswer code tag (r'.result index removed)) rest
  handedOn : HandedOn e fresh ((s.part.setRecord i (some r')).took rest) q
  raises : RaisesOnly [.diamReject, .stall] (((s.part.setRecord i (some r')).took rest).posted l w) q

theorem amended_hands (h : s.part.granted code tag args rest) (hc : code ∈ requestCodes) (hne : code ≠ 0x30)
    {e : Option Entry} {fresh : Bool} {l : List SendItem} {w : Word16} (short : l.length ≤ 1)
    (clear : w.getLsbD Condition.diamReject.bit = s.part.raised .diamReject)
    (hh : handlerOf code args (s.part.handed rest)
      = amended i index removed (handOver e fresh (((s.part.setRecord i (some r')).took rest).posted l w))) :
    ∃ q, AmendedOn s code tag rest i r' index removed e fresh l w q := by
  have record : (handOver e fresh (((s.part.setRecord i (some r')).took rest).posted l w)).recordAt i = some r' := by
    rw [Part.recordAt, handOver_table]
    exact recordAt_setRecord_self s.part i _
  rw [amended, amendmentResult_of_record record] at hh
  obtain ⟨run, replies⟩ := granted_accepts h hc hne hh
  have pend : ((s.part.setRecord i (some r')).took rest).boot.resetPending = none := h.1.1.2.1
  exact ⟨_, run, replies, handedEnd_handedOn s.part pend short clear, handedEnd_raises s.part pend⟩

end Amendments

end Sys2Proof.Machine
end

section
namespace Sys2Proof.Machine

section Handlers

variable {s : State} {tag : Byte} {args : List Byte} {rest : List (List Byte)} {i : Fin 8} {r : Record}

/-! ### APPEND ENTRY -/

theorem append_handled (h : s.part.granted 0x18 tag args rest) (hi : s.part.lookup (readStem args) = some i)
    (hr : s.part.recordAt i = some r) : handlerOf 0x18 args (s.part.handed rest)
      = amended i r.entries.length false (appendTaken i r (readPlanned args 4) (s.part.handed rest)) := by
  have ht : firstFailing (amendmentTests args r ++
      [(!(readPlanned args 4).allowed, AnswerCode.badArgument), (decide (12 ≤ r.entries.length), .planFull)]) = none :=
    (stemTests_of_lookup hi hr _).symm.trans h.2.2
  obtain ⟨finished, revision, allowed, room, -⟩ := by
    simpa only [amendmentTests, List.cons_append, List.nil_append, firstFailing_none] using ht
  refine (withStem_of_lookup (p := s.part.handed rest) hi hr _).trans ?_
  dsimp only
  rw [if_neg (by simpa using finished), if_neg (by simpa using revision), if_neg (by simpa using allowed),
    if_neg (by simpa [listLimit] using room)]

end Handlers

/-- Settles O24: where the record may not arm it is only rewritten; else the arming test finds a PENDING entry. -/
theorem appendEntryJoinsTheEnd : Obligations.AppendEntryJoinsTheEnd := by
  intro s tag args rest i r hs h hi hr
  have handled := append_handled h hi hr
  set r' := r.appendEntry .pending (readPlanned args 4) with hr'
  have met := recordAt_setRecord_self (s.part.handed rest) i (some r')
  have may : r'.mayArm = r.mayArm := appendEntry_mayArm r _
  refine ⟨fun hm => ?_, fun hm => ?_⟩
  · rw [appendTaken, arm_idle met (may.trans hm)] at handled
    have run := amended_rewrites hs h (by decide) hr (by exact rfl) (by exact rfl) handled
    rw [Record.result_of_entry (n := r.entries.length + 1) (by simp [hr', Record.appendEntry])
      (List.getElem?_concat_length ..)] at run
    exact run
  · obtain ⟨e, es, he⟩ := armFirst_some_of_mem (List.mem_append_right r.entries (List.mem_singleton_self _))
      (x := { ident := r.nextIdent, state := .pending, plan := readPlanned args 4, results := none }) rfl
    obtain ⟨len, at_⟩ := armFirst_concat rfl he
    have armed := arm_of_record met
    rw [armingTest_armed (may.trans hm) he, setRecord_setRecord] at armed
    rw [appendTaken, armed] at handled
    obtain ⟨q, run, replies, handedOn, raises⟩ :=
      amended_hands (r' := { r' with entries := es }) (l := []) (w := s.part.link.conditions) h (by decide) (by decide) (by simp)
        rfl handled
    refine ⟨q, e, es, run, he, ?_, handedOn, RaisesOnly.trans (.of_conditions rfl) raises⟩
    rw [Record.result_of_entry (by exact len) (by exact at_), apply_ite Entry.state] at replies
    exact replies

end Sys2Proof.Machine
end

section
namespace Sys2Proof.Machine

/-! ### INSERT ENTRY -/

theorem reach_iff {r : Record} {index : Nat} {e : Entry} :
    r.reach index = some e ↔ r.entries[index]? = some e ∧ (e.state = .armed ∨ e.state = .pending) := by
  unfold Record.reach
  rcases r.entries[index]? with _ | x
  · simp
  · by_cases h : x.state = .armed ∨ x.state = .pending
    · simp only [if_pos h, Option.some.injEq]
      exact ⟨fun k => ⟨k, k ▸ h⟩, fun k => k.1⟩
    · simp only [if_neg h, Option.some.injEq]
      exact ⟨nofun, fun k => absurd (k.1 ▸ k.2) h⟩

/-- The index may be named: the new entry is ARMED in the ARMED entry's place, else PENDING (02 R32). -/
theorem insertState_granted {r : Record} {index : Nat} (h : r.reach index ≠ none ∨ index = r.entries.length) :
    r.insertState index = some (if r.namesArmed index then .armed else .pending) := by
  unfold Record.insertState
  by_cases last : index = r.entries.length
  · have unreached : r.reach index = none := by simp [Record.reach, last]
    have idle : r.namesArmed index = false := by simp [Record.namesArmed, unreached]
    rw [if_pos last, idle]
    rfl
  · obtain ⟨e, he⟩ := Option.ne_none_iff_exists'.mp (h.resolve_right last)
    have states := (reach_iff.mp he).2
    rw [if_neg last, he, namesArmed_of_reach he]
    rcases states with k | k <;> simp [k]

/-- The granted tests of INSERT ENTRY: the index may be named, and the request is handled. -/
theorem insert_handled {s : State} {tag : Byte} {args : List Byte} {rest : List (List Byte)} {i : Fin 8} {r : Record}
    (h : s.part.granted 0x19 tag args rest) (hi : s.part.lookup (readStem args) = some i)
    (hr : s.part.recordAt i = some r) :
    readU8 args 4 ≤ r.entries.length ∧ handlerOf 0x19 args (s.part.handed rest) = amended i (readU8 args 4) false
      (insertTaken i r (readU8 args 4) (if r.namesArmed (readU8 args 4) then .armed else .pending) (readPlanned args 5)
        (s.part.handed rest)) := by
  have ht : firstFailing (amendmentTests args r ++
      [((r.reach (readU8 args 4)).isNone && readU8 args 4 != r.entries.length, AnswerCode.badArgument),
        (!(readPlanned args 5).allowed, .badArgument), (decide (12 ≤ r.entries.length), .planFull),
        (r.namesArmed (readU8 args 4) && s.part.tooLate (some (readPlanned args 5).target), .tooLate)]) = none :=
    (stemTests_of_lookup hi hr _).symm.trans h.2.2
  obtain ⟨finished, revision, named, allowed, room, late, -⟩ := by
    simpa only [amendmentTests, List.cons_append, List.nil_append, firstFailing_none] using ht
  have state := insertState_granted (r := r) (index := readU8 args 4) (by
    by_contra c
    obtain ⟨unreached, other⟩ := not_or.mp c
    simp [not_not.mp unreached, other] at named)
  refine ⟨(Record.insertState_spec state).1, (withStem_of_lookup (p := s.part.handed rest) hi hr _).trans ?_⟩
  dsimp only
  rw [if_neg (by simpa using finished), if_neg (by simpa using revision), state]
  dsimp only
  rw [if_neg (by simpa using allowed), if_neg (by simpa [listLimit] using room), if_neg]
  rintro ⟨armed, tooLate⟩
  rcases hn : r.namesArmed (readU8 args 4)
  · simp [hn] at armed
  · simp only [hn, Bool.true_and] at late
    exact absurd (late.symm.trans tooLate) (by simp)

/-- Settles O25: at the ARMED entry's index the new entry is handed on and nothing more is armed; elsewhere as an append. -/
theorem insertEntryTakesTheIndex : Obligations.InsertEntryTakesTheIndex := by
  intro s tag args rest i r hs h hi hr
  obtain ⟨inside, handled⟩ := insert_handled h hi hr
  generalize readU8 args 4 = index at inside handled ⊢
  set plan := readPlanned args 5
  have at_ : ∀ (es : List Entry) (x : Entry), index ≤ es.length → (es.insertIdx index x)[index]? = some x :=
    fun es x k => by rw [List.getElem?_insertIdx_self, if_pos k]
  refine ⟨fun named hm => ?_, fun named => ?_, fun named hm => ?_⟩
  · have met := recordAt_setRecord_self (s.part.handed rest) i (some (r.insertEntry index .pending plan))
    have may := (insertEntry_pending_mayArm plan inside).trans hm
    rw [named, insertTaken] at handled
    simp only [Bool.false_eq_true, if_false, reduceCtorEq] at handled
    rw [arm_idle met may] at handled
    have run := amended_rewrites hs h (by decide) hr (by exact rfl) (by exact rfl) handled
    rw [Record.result_of_entry (n := r.entries.length + 1) (by simp [Record.insertEntry, List.length_insertIdx_of_le_length inside])
      (by exact at_ _ _ inside)] at run
    exact run
  · set new : Entry := { ident := r.nextIdent, state := .armed, plan, results := none }
    have len : index ≤ (r.entries.map disarmEntry).length := by simpa using inside
    have stays : (handOver (some new) true ((s.part.handed rest).setRecord i (some (r.insertEntry index .armed plan)))).recordAt i
        = some (r.insertEntry index .armed plan) := by
      rw [Part.recordAt, handOver_table]
      exact recordAt_setRecord_self (s.part.handed rest) i _
    have barred : (r.insertEntry index .armed plan).mayArm = false :=
      mayArm_of_armed (x := new) ((List.mem_insertIdx len).mpr (.inl rfl)) rfl
    rw [named, insertTaken] at handled
    simp only [if_true] at handled
    rw [arm_idle stays barred] at handled
    obtain ⟨q, run, replies, handedOn, raises⟩ :=
      amended_hands (r' := r.insertEntry index .armed plan) (l := []) (w := s.part.link.conditions) h (by decide) (by decide)
        (by simp) rfl handled
    refine ⟨q, run, ?_, handedOn, RaisesOnly.trans (.of_conditions rfl) raises⟩
    rw [Record.result_of_entry (n := r.entries.length + 1) (x := new)
      (by simp [Record.insertEntry, List.length_insertIdx_of_le_length len]) (by exact at_ _ _ len)] at replies
    exact replies
  · set new : Entry := { ident := r.nextIdent, state := .pending, plan, results := none }
    have met := recordAt_setRecord_self (s.part.handed rest) i (some (r.insertEntry index .pending plan))
    have may := (insertEntry_pending_mayArm plan inside).trans hm
    obtain ⟨e, es, he⟩ := armFirst_some_of_mem ((List.mem_insertIdx inside).mpr (.inl rfl) : new ∈ _) rfl
    have len : es.length = r.entries.length + 1 :=
      (armFirst_spec he).2.1.trans (List.length_insertIdx_of_le_length inside new)
    have found : es[index]? = some es[index] := List.getElem?_eq_getElem (by omega)
    have armed := arm_of_record met
    rw [armingTest_armed may he, setRecord_setRecord] at armed
    rw [named, insertTaken] at handled
    simp only [Bool.false_eq_true, if_false, reduceCtorEq] at handled
    rw [armed] at handled
    obtain ⟨q, run, replies, handedOn, raises⟩ :=
      amended_hands (r' := { r.insertEntry index .pending plan with entries := es }) (l := []) (w := s.part.link.conditions)
        h (by decide) (by decide) (by simp) rfl handled
    refine ⟨q, e, es, es[index], run, he, found, ?_, handedOn, RaisesOnly.trans (.of_conditions rfl) raises⟩
    rw [Record.result_of_entry (by exact len) (by exact found)] at replies
    exact replies

end Sys2Proof.Machine
end

section
namespace Sys2Proof.Machine

section Handlers

variable {s : State} {tag : Byte} {args : List Byte} {rest : List (List Byte)} {i : Fin 8} {r : Record} {e : Entry}

/-! ### CHANGE ENTRY -/

/-- The granted tests of CHANGE ENTRY: the entry may be changed, and the request is handled. -/
theorem change_handled (h : s.part.granted 0x1A tag args rest) (hi : s.part.lookup (readStem args) = some i)
    (hr : s.part.recordAt i = some r) (he : r.entries[readU8 args 4]? = some e) (reached : e.state = .armed ∨ e.state = .pending) :
    handlerOf 0x1A args (s.part.handed rest)
      = amended i (readU8 args 4) false (changeTaken i r (readU8 args 4) e (readPlanned args 5) (s.part.handed rest)) := by
  have ht : firstFailing (amendmentTests args r ++
      [((r.reach (readU8 args 4)).isNone, AnswerCode.noSuchEntry), (!(readPlanned args 5).allowed, .badArgument),
        (r.namesArmed (readU8 args 4) && s.part.tooLate (some (readPlanned args 5).target), .tooLate)]) = none :=
    (stemTests_of_lookup hi hr _).symm.trans h.2.2
  obtain ⟨finished, revision, -, allowed, late, -⟩ := by
    simpa only [amendmentTests, List.cons_append, List.nil_append, firstFailing_none] using ht
  have reach := reach_iff.mpr ⟨he, reached⟩
  rw [namesArmed_of_reach reach] at late
  refine (withStem_of_lookup (p := s.part.handed rest) hi hr _).trans ?_
  dsimp only
  rw [if_neg (by simpa using finished), if_neg (by simpa using revision), reach]
  dsimp only
  rw [if_neg (by simpa using allowed), if_neg]
  rintro ⟨armed, tooLate⟩
  rw [armed, beq_self_eq_true, Bool.true_and] at late
  exact absurd (late.symm.trans tooLate) (by simp)

/-! ### CANCEL ENTRY -/

/-- The granted tests of CANCEL ENTRY: the entry may be cancelled, and the request is handled. -/
theorem cancel_handled (h : s.part.granted 0x1B tag args rest) (hi : s.part.lookup (readStem args) = some i)
    (hr : s.part.recordAt i = some r) (he : r.entries[readU8 args 4]? = some e) (reached : e.state = .armed ∨ e.state = .pending) :
    handlerOf 0x1B args (s.part.handed rest)
      = amended i (readU8 args 4) true (cancelTaken i r (readU8 args 4) e (s.part.handed rest)) := by
  have ht : firstFailing (amendmentTests args r ++
      [((r.reach (readU8 args 4)).isNone, AnswerCode.noSuchEntry),
        (r.namesArmed (readU8 args 4) && s.part.tooLate (r.nextTarget (readU8 args 4)), .tooLate)]) = none :=
    (stemTests_of_lookup hi hr _).symm.trans h.2.2
  obtain ⟨finished, revision, -, late, -⟩ := by
    simpa only [amendmentTests, List.cons_append, List.nil_append, firstFailing_none] using ht
  have reach := reach_iff.mpr ⟨he, reached⟩
  rw [namesArmed_of_reach reach] at late
  refine (withStem_of_lookup (p := s.part.handed rest) hi hr _).trans ?_
  dsimp only
  rw [if_neg (by simpa using finished), if_neg (by simpa using revision), reach]
  dsimp only
  rw [if_neg]
  rintro ⟨armed, tooLate⟩
  rw [armed, beq_self_eq_true, Bool.true_and] at late
  exact absurd (late.symm.trans tooLate) (by simp)

end Handlers

theorem changeTaken_eq {i : Fin 8} {r : Record} {index : Nat} {e : Entry} (plan : Planned) (p : Part)
    (he : r.entries[index]? = some e) : changeTaken i r index e plan p =
      let r' : Record := { r with entries := r.entries.set index { e with plan }, revision := r.revision + 1 }
      if e.state = .armed then handOver (some { e with plan }) true (p.setRecord i (some r')) else p.setRecord i (some r') := by
  rw [changeTaken, Record.changeEntry, modify_eq_set (fun x : Entry => { x with plan }) he]

/-- Settles O26: the record is rewritten, and a changed ARMED entry handed on. -/
theorem changeEntryReplacesPlannedFields : Obligations.ChangeEntryReplacesPlannedFields := by
  intro s tag args rest i r e hs h hi hr he
  have inside : readU8 args 4 < r.entries.length := (List.getElem?_eq_some_iff.mp he).1
  have at_ : (r.entries.set (readU8 args 4) { e with plan := readPlanned args 5 })[readU8 args 4]? =
      some { e with plan := readPlanned args 5 } := List.getElem?_set_self inside
  refine ⟨rfl, fun pending => ?_, fun armed => ?_⟩
  · have handled := change_handled h hi hr he (.inr pending)
    rw [changeTaken_eq _ _ he, if_neg (by simp [pending])] at handled
    have run := amended_rewrites hs h (by decide) hr (by exact rfl) (by exact rfl) handled
    rw [Record.result_of_entry (List.length_set ..) (by exact at_)] at run
    exact run
  · have handled := change_handled h hi hr he (.inl armed)
    rw [changeTaken_eq _ _ he, if_pos armed] at handled
    obtain ⟨q, run, replies, handedOn, raises⟩ :=
      amended_hands (l := []) (w := s.part.link.conditions) h (by decide) (by decide) (by simp) rfl handled
    refine ⟨q, run, ?_, handedOn, RaisesOnly.trans (.of_conditions rfl) raises⟩
    rw [Record.result_of_entry (List.length_set ..) (by exact at_)] at replies
    exact replies

theorem cancelTaken_armed {i : Fin 8} {r : Record} {index : Nat} {e : Entry} {p : Part} (h : e.state = .armed)
    (barred : (p.armingTest (r.cancelEntry index)).2 ≠ .nothing) : cancelTaken i r index e p =
      armingHands (p.armingTest (r.cancelEntry index)).2 (p.setRecord i (some (p.armingTest (r.cancelEntry index)).1)) := by
  rw [cancelTaken, if_pos h]
  split
  next hn => exact absurd (congrArg Prod.snd hn) barred
  next ht => rw [ht]

theorem raise_short (c : Condition) {p : Part} (empty : p.link.sendList = []) : (raise c p).link.sendList.length ≤ 1 := by
  unfold raise
  dsimp only
  rw [empty]
  split <;> simp

/-- A taken amendment that raises a condition and then hands on. -/
theorem amended_raises {s : State} {code tag : Byte} {args : List Byte} {rest : List (List Byte)} {i : Fin 8} {r' : Record}
    {index : Nat} {removed : Bool} (h : s.part.granted code tag args rest) (hc : code ∈ requestCodes) (hne : code ≠ 0x30)
    {e : Option Entry} {fresh : Bool} {c : Condition} (other : c ∉ endRaises)
    (hh : handlerOf code args (s.part.handed rest)
      = amended i index removed (handOver e fresh (raise c ((s.part.handed rest).setRecord i (some r'))))) :
    ∃ q, Runs (requestRow code) s q ∧ s.part.replies q (okAnswer code tag (r'.result index removed)) rest
      ∧ q.raised c = true ∧ RaisesOnly (c :: endRaises) s.part q
      ∧ HandedOn e fresh ((s.part.setRecord i (some r')).took rest) q := by
  have untouched : c ≠ .diamReject := fun k => other (k ▸ List.mem_cons_self ..)
  obtain ⟨q, run, replies, handedOn, raises⟩ := amended_hands (l := (raise c (s.part.handed rest)).link.sendList)
    (w := (raise c (s.part.handed rest)).link.conditions) h hc hne (raise_short c rfl)
    (by exact (raised_raise c .diamReject (s.part.handed rest)).trans (by simp [untouched]; rfl)) hh
  refine ⟨q, run, replies, ?_, ?_, handedOn⟩
  · rw [(raises c).2 other]
    exact (raised_raise c c (s.part.handed rest)).trans (by simp)
  · exact ((RaisesOnly.of_conditions (q := s.part.handed rest) rfl).trans
      ((RaisesOnly.of_raise (List.mem_cons_self ..) _).trans (.of_conditions rfl))).trans (raises.mono (List.subset_cons_self ..))

/-- Settles O27: the record is rewritten; after the ARMED entry the arming test says what is handed on. -/
theorem cancelEntryRemovesTheEntry : Obligations.CancelEntryRemovesTheEntry := by
  intro s tag args rest i r e hs h hi hr he
  have handled := fun reached => cancel_handled h hi hr he reached
  generalize readU8 args 4 = index at he handled ⊢
  set p := s.part.handed rest with hp
  refine ⟨fun pending => ?_, fun armed may => ?_, fun x es armed may first => ?_, fun armed may bare six room => ?_,
    fun armed may bare barred => ?_⟩
  · have handled := handled (.inr pending)
    rw [cancelTaken, if_neg (by simp [pending])] at handled
    exact amended_rewrites hs h (by decide) hr (by exact rfl) (by exact rfl) handled
  · have handled := handled (.inl armed)
    rw [cancelTaken, if_pos armed, armingTest_idle p (r := r.cancelEntry index) may] at handled
    obtain ⟨q, run, replies, handedOn, raises⟩ :=
      amended_hands (l := []) (w := s.part.link.conditions) h (by decide) (by decide) (by simp) rfl handled
    exact ⟨q, run, replies, handedOn, RaisesOnly.trans (.of_conditions rfl) raises⟩
  · have handled := handled (.inl armed)
    have test := armingTest_armed (p := p) (r := r.cancelEntry index) may first
    rw [cancelTaken_armed armed (by simp [test]), test] at handled
    obtain ⟨q, run, replies, handedOn, raises⟩ :=
      amended_hands (r' := { r.cancelEntry index with entries := es }) (l := []) (w := s.part.link.conditions) h (by decide)
        (by decide) (by simp) rfl handled
    rw [Record.result, (armFirst_spec first).2.1] at replies
    exact ⟨q, run, replies, handedOn, RaisesOnly.trans (.of_conditions rfl) raises⟩
  · have handled := handled (.inl armed)
    have test := armingTest_filler (p := p) (r := r.cancelEntry index) may bare six room
    rw [cancelTaken_armed armed (by simp [test]), test] at handled
    obtain ⟨q, run, -, raised, raises, handedOn⟩ := amended_raises (r' := (r.cancelEntry index).appendEntry .armed p.fillerPlan) h
      (by decide) (by decide) (c := .filler) (by simp [endRaises, feedRaises]) handled
    have revision : r.revision + 2 = r.revision + 1 + 1 := by rw [BitVec.add_assoc]; rfl
    rw [revision]
    exact ⟨q, run, raised, raises, handedOn⟩
  · have handled := handled (.inl armed)
    have test := armingTest_empty (p := p) (r := r.cancelEntry index) may bare barred
    rw [cancelTaken_armed armed (by simp [test]), test] at handled
    exact amended_raises (r' := r.cancelEntry index) h (by decide) (by decide) (c := .planEmpty)
      (by simp [endRaises, feedRaises]) handled

end Sys2Proof.Machine
end

section
namespace Sys2Proof.Machine

/-! ### A cut abort in its cases -/

/-- The part whose binding and carry have ended (02 R48, 03 R65). -/
def unbound (p : Part) : Part :=
  { p with length := { p.length with carry := none }, table := { p.table with bound := none } }

/-- The entries once the CUTTING entry of an identity has returned (02 R48). -/
def Record.returned (r : Record) (ident : Nat) : Option (List Entry) :=
  changeFirst ident .cutting (fun e => { e with state := abortState r.state }) r.entries

/-- The part in whose slot the CUTTING entry has returned, handed on where the record is ACTIVE. -/
def entryReturned (i : Fin 8) (r : Record) (es : List Entry) (p : Part) : Part :=
  let t := (unbound p).setRecord i (some { r with entries := es })
  if r.state = .active then handOver ((findState .armed es).map (·.2)) false t else t

/-- A cut bound to a record whose entry, CUTTING since the cut start, returns. -/
structure Returns (b : BoundCut) (r : Record) (es : List Entry) (p : Part) : Prop where
  bound : p.table.bound = some b
  record : p.recordAt b.slot = some r
  entry : ∃ ident x, b.target = .entry ident x ∧ r.returned ident = some es

/-- A cut abort returns the CUTTING entry, or there is none and only binding and carry end. -/
theorem cutAbort_cases (p : Part) : (cutAbort p = unbound p ∧ ∀ b r es, ¬Returns b r es p)
    ∨ ∃ b r es, Returns b r es p ∧ cutAbort p = entryReturned b.slot r es p := by
  by_cases h : ∃ b r es, Returns b r es p
  · obtain ⟨⟨i, kind, target⟩, r, es, bound, record, ident, x, rfl, change⟩ := h
    refine .inr ⟨_, r, es, ⟨bound, record, ident, x, rfl, change⟩, ?_⟩
    rw [cutAbort, bound]
    dsimp only
    rw [record]
    dsimp only
    rw [show changeFirst ident .cutting (fun e => { e with state := abortState r.state }) r.entries = some es from change]
    rfl
  · refine .inl ⟨?_, fun b r es k => h ⟨b, r, es, k⟩⟩
    unfold cutAbort
    split
    next hb =>
      split
      · rfl
      next hr =>
        split
        · rfl
        next hc => exact absurd ⟨_, _, _, hb, hr, _, _, rfl, hc⟩ h
    next => rfl

theorem unbound_planWork (p : Part) : PlanWork p (unbound p) := rfl

theorem entryReturned_planWork (i : Fin 8) (r : Record) (es : List Entry) (p : Part) : PlanWork p (entryReturned i r es p) := by
  unfold entryReturned
  dsimp only
  split
  · exact .since (handOver_handed _ _ _).planWork rfl
  · rfl

theorem cutAbort_planWork (p : Part) : PlanWork p (cutAbort p) := by
  obtain ⟨eq, -⟩ | ⟨b, r, es, -, eq⟩ := cutAbort_cases p
  · exact eq ▸ unbound_planWork p
  · exact eq ▸ entryReturned_planWork _ _ _ p

theorem entryReturned_table (i : Fin 8) (r : Record) (es : List Entry) (p : Part) :
    (entryReturned i r es p).table = ((unbound p).setRecord i (some { r with entries := es })).table := by
  unfold entryReturned
  dsimp only
  split
  · exact handOver_table _ _ _
  · rfl

theorem entryReturned_length (i : Fin 8) (r : Record) (es : List Entry) (p : Part) :
    (entryReturned i r es p).length = { (unbound p).length with creep := (entryReturned i r es p).length.creep } := by
  unfold entryReturned
  dsimp only
  split
  · exact (handOver_handed _ _ _).length
  · rfl

theorem entryReturned_corrections (i : Fin 8) (r : Record) (es : List Entry) (p : Part) :
    (entryReturned i r es p).feed.corrections = p.feed.corrections := by
  unfold entryReturned
  dsimp only
  split
  · rw [handOver_corrections]
    rfl
  · rfl

theorem entryReturned_held (i : Fin 8) (r : Record) (es : List Entry) (p : Part) : (entryReturned i r es p).feed.held =
    if r.state = .active then (findState .armed es).map (fun x => x.2.heldEntry) else p.feed.held := by
  unfold entryReturned
  dsimp only
  split
  · rw [handOver_held, Option.map_map]
    rfl
  · rfl

/-- A cut abort, seen over what follows it, has aborted the cut. -/
theorem cutAbort_aborted {p q : Part} (h : Over (cutAbort p) q) : CutAborted p q := by
  obtain ⟨eq, kept⟩ | ⟨b, r, es, ⟨bound, record, ident, x, target, change⟩, eq⟩ := cutAbort_cases p
  all_goals rw [eq] at h
  · have slots : q.table.slots = p.table.slots := by rw [h.table]; rfl
    have held : q.feed.held = p.feed.held := (h.seen 0).held
    refine ⟨by rw [h.table]; rfl, h.carry, h.logPos, h.history, fun _ => slots, fun b _ => ⟨fun j _ => by rw [slots],
      fun _ _ _ => ⟨slots, held⟩, fun _ _ => ⟨slots, held⟩⟩, fun b r ident x es bound record target change => ?_⟩
    exact absurd ⟨bound, record, ident, x, target, change⟩ (kept b r es)
  · have length := entryReturned_length b.slot r es p
    have table := h.table.trans (entryReturned_table b.slot r es p)
    obtain ⟨rec_, others, -, ended⟩ := written_table (p := unbound p) table
    refine ⟨ended, h.carry.trans (by rw [length]; rfl), h.logPos.trans (by rw [length]; rfl), h.history.trans (by rw [length]; rfl),
      fun k => ?_, fun b' k => ?_, fun b' r' ident' x' es' k record' target' change' => ?_⟩
    · rw [bound] at k
      cases k
    · obtain rfl := Option.some.inj (bound.symm.trans k)
      refine ⟨others, fun _ _ t => ?_, fun _ t => ?_⟩
      · rw [target] at t
        cases t
      · rw [target] at t
        cases t
    · obtain rfl := Option.some.inj (bound.symm.trans k)
      obtain rfl := Option.some.inj (record.symm.trans record')
      cases target.symm.trans target'
      obtain rfl := Option.some.inj (change.symm.trans change')
      have held := (h.seen b.slot).held.trans (entryReturned_held b.slot r es p)
      refine ⟨rec_, (h.seen b.slot).corrections.trans (entryReturned_corrections b.slot r es p), fun active => ?_, fun idle => ?_⟩
      · rw [held, if_pos active]
      · rw [held, if_neg idle]

end Sys2Proof.Machine
end

section
namespace Sys2Proof.Machine

/-! ### The feed's request at a hand-over -/

/-- No cut request waits for the saw. -/
def Feed.unasked (f : Feed) : Prop := ∀ k, f.request ≠ .waiting k

theorem enterFeed_unasked (st : FeedState) {p : Part} (h : p.feed.unasked) : (enterFeed st p).feed.unasked := by
  rw [enterFeed_feed]
  split
  · exact h
  · unfold Feed.unasked Feed.enter
    dsimp only
    split
    · simp
    · exact h

theorem withdraw_unasked (f : Feed) : f.withdraw.unasked := by
  unfold Feed.unasked Feed.withdraw
  dsimp only
  split <;> simp

theorem feedDecide_unasked (p : Part) : (feedDecide p).feed.unasked := enterFeed_unasked _ (withdraw_unasked p.feed)

theorem reacted_unasked {e : Option Entry} {fresh : Bool} {p : Part} (h : p.feed.unasked) : (reacted e fresh p).feed.unasked := by
  have kept : (given e fresh p).feed.unasked := h
  have entered := enterFeed_unasked (given e fresh p).placement kept
  have checked : (recoveryCheck (given e fresh p)).feed.unasked := by
    unfold recoveryCheck
    split
    · exact entered
    · exact kept
  have decided := feedDecide_unasked (given e fresh p)
  unfold reacted feedReact
  repeat' split
  all_goals assumption

theorem handOver_unasked {e : Option Entry} {fresh : Bool} {p : Part} (h : p.feed.unasked) : (handOver e fresh p).feed.unasked := by
  rw [(handOver_beside e fresh p).fed.feed]
  exact reacted_unasked h

/-! ### A feed in CUT_WAIT at a hand-over -/

/-- A feed in CUT_WAIT takes what is handed on and does no more; no condition is raised. -/
theorem handOver_cutWait (e : Option Entry) (fresh : Bool) {p : Part} (h : p.feed.state = .cutWait) :
    (handOver e fresh p).feed = p.feed.take e fresh ∧ RaisesOnly [] p (handOver e fresh p) := by
  have kept : reacted e fresh p = given e fresh p := reacted_keeps (.inr (.inr (.inl h)))
  refine ⟨by rw [(handOver_beside e fresh p).fed.feed, kept]; rfl, ?_⟩
  cases e with
  | none =>
    rw [handOver_none, kept]
    exact .of_conditions rfl
  | some x =>
    rw [handOver_some, kept]
    exact RaisesOnly.trans (.of_conditions rfl) (guidanceTest_works [] (given (some x) fresh p)).raises

/-! ### The feed at a cut abort -/

theorem cutAbort_unasked {p : Part} (h : p.feed.unasked) : (cutAbort p).feed.unasked := by
  obtain ⟨eq, -⟩ | ⟨b, r, es, -, eq⟩ := cutAbort_cases p
  all_goals rw [eq]
  · exact h
  · unfold entryReturned
    dsimp only
    split
    · exact handOver_unasked h
    · exact h

/-- A feed in CUT_WAIT waits on, with its request, and nothing is raised. -/
theorem cutAbort_cutWait {p : Part} (h : p.feed.state = .cutWait) :
    (cutAbort p).feed.state = .cutWait ∧ (cutAbort p).feed.request = p.feed.request ∧ RaisesOnly [] p (cutAbort p) := by
  obtain ⟨eq, -⟩ | ⟨b, r, es, -, eq⟩ := cutAbort_cases p
  all_goals rw [eq]
  · exact ⟨h, rfl, .of_conditions rfl⟩
  · unfold entryReturned
    dsimp only
    split
    · obtain ⟨feed, raises⟩ := handOver_cutWait ((findState .armed es).map (·.2)) false
        (p := (unbound p).setRecord b.slot (some { r with entries := es })) h
      rw [feed]
      exact ⟨h, rfl, RaisesOnly.trans (.of_conditions rfl) raises⟩
    · exact ⟨h, rfl, .of_conditions rfl⟩

theorem cutAbort_cutTaken {p : Part} (h : p.feed.cutTaken = true) : (cutAbort p).feed.cutTaken = true := by
  obtain ⟨wait, k, taken⟩ := p.feed.cutTaken_iff.mp h
  obtain ⟨state, request, -⟩ := cutAbort_cutWait wait
  exact (Feed.cutTaken_iff _).mpr ⟨state, k, request.trans taken⟩

/-- A feed in GRIP stays there, or has decided afresh at the hand-over. -/
theorem cutAbort_grip {p : Part} (h : p.feed.state = .grip) :
    (cutAbort p).feed.state = .grip ∨ (cutAbort p).feed.state = (cutAbort p).decision := by
  obtain ⟨eq, -⟩ | ⟨b, r, es, -, eq⟩ := cutAbort_cases p
  all_goals rw [eq]
  · exact .inl h
  · unfold entryReturned
    dsimp only
    split
    · exact .inr (handOver_grip _ _ h)
    · exact .inl h

/-! ### The saw's timeouts -/

/-- What is seen, once the event is over, of a cut that is over with the bar out. -/
theorem cutOver_decided (b : Part) {x : Part} (taken : x.feed.cutTaken = true) (out : x.saw.state ≠ .parked)
    (pend : (feedCutOver x).boot.resetPending = none ∨ (feedCutOver x).link.busOff = false) :
    (conclude b (feedCutOver x)).feed.state = (conclude b (feedCutOver x)).decision
      ∧ (conclude b (feedCutOver x)).feed.request = .none
      ∧ (conclude b (feedCutOver x)).link.conditions = (feedCutOver x).link.conditions := by
  obtain ⟨state, request, holds⟩ := feedCutOver_decides taken out
  obtain ⟨feed, decision⟩ := conclude_decided b pend (by rw [(feedCutOver_feedOnly x).saw]; exact out) holds
  rw [feed, decision]
  exact ⟨state, request, (conclude_unheld b pend holds).2⟩

theorem feedCutOver_untaken {x : Part} (h : x.feed.cutTaken = false) : feedCutOver x = x := by simp [feedCutOver, h]

theorem cutTimes_first {p : Part} (state : p.saw.state = .advancing) (attempt : (p.saw.cycle.map (·.attempt)).getD 1 ≠ 2)
    (away : p.pins.homeClosed = false) : cutTimesOut p = cutAbort { p with saw := p.saw.return_ .firstTimeout } := by
  simp [cutTimesOut, state, attempt, firstTimeout, away]

theorem cutTimes_second {p : Part} (state : p.saw.state = .advancing) (attempt : (p.saw.cycle.map (·.attempt)).getD 1 = 2)
    (away : p.pins.homeClosed = false) : cutTimesOut p =
      feedCutOver (cutAbort (raise .sawTimeout { p with saw := p.saw.return_ .secondTimeout })) := by
  simp [cutTimesOut, state, attempt, secondTimeout, away]

/-- What the cut timer's running out leaves at either attempt, `x` being the part whose cut aborts. -/
theorem timedOut_seen {p x y : Part} {cause : ReturnCause} (saw : x.saw = p.saw.return_ cause) (work : PlanWork x y) (b : Part)
    (pend : y.boot.resetPending = none ∨ y.link.busOff = false) :
    (conclude b y).saw = p.saw.return_ cause ∧ (conclude b y).link.image.saw = .back := by
  refine ⟨(conclude_follows b pend).saw.trans (work.saw.trans saw), ?_⟩
  rw [conclude_sawDemand b pend, work.saw, saw]
  rfl

/-- Settles O52: at either attempt `cutAbort`; at the second, and for a jam, the cut is over with the bar out. -/
theorem sawTimeoutsReturnAndJam : Obligations.SawTimeoutsReturnAndJam := by
  intro s hs hon
  have quiet := hs.quiet hon
  refine ⟨fun idle => ?_, fun idle => ?_, fun c timed state hc away => ?_, fun timed state => ?_⟩
  · by_cases timed : s.part.saw.cutTimer = none
    · exact runs_on rfl (perform_off (by simp [timed]))
    · refine runs_on rfl ((perform_on hon (Option.isSome_iff_ne_none.mpr timed)).trans ?_)
      rw [cutTimesOut, if_neg (idle.resolve_left timed), quiet.settled]
  · by_cases timed : s.part.saw.returnTimer = none
    · exact runs_on rfl (perform_off (by simp [timed]))
    · refine runs_on rfl ((perform_on hon (Option.isSome_iff_ne_none.mpr timed)).trans ?_)
      rw [returnTimesOut, if_neg (idle.resolve_left timed), quiet.settled]
  · have run : Runs .cutTimerExpiry s (conclude s.part (cutTimesOut s.part)) :=
      runs_on rfl (perform_on hon (Option.isSome_iff_ne_none.mpr timed))
    by_cases attempt : c.attempt = 2
    · rw [cutTimes_second state (by rw [hc]; exact attempt) away] at run
      set x := raise .sawTimeout { s.part with saw := s.part.saw.return_ .secondTimeout } with hx
      have work : PlanWork x (feedCutOver (cutAbort x)) :=
        (cutAbort_planWork x).trans (feedCutOver_feedOnly _).handed.planWork
      have pend : (feedCutOver (cutAbort x)).boot.resetPending = none ∨ (feedCutOver (cutAbort x)).link.busOff = false := by
        rw [work.boot, work.busOff]
        exact quiet.pending
      obtain ⟨saw, image⟩ := timedOut_seen (p := s.part) (x := x) rfl work s.part pend
      have raises : RaisesOnly endRaises x (conclude s.part (feedCutOver (cutAbort x))) :=
        (((cutAbort_works x).raises.trans (feedCutOver_works _).raises).mono (by simp [endRaises])).trans
          (conclude_raises s.part pend)
      refine ⟨_, run, (cutAbort_aborted (.of_feedCutOver (.of_conclude s.part pend)) : CutAborted x _), ?_, image,
        fun k => absurd attempt k, fun _ => ⟨?_, ?_, ?_, fun taken => ?_⟩⟩
      · refine HeadWork.concluded s.part (HeadWork.trans ?_ ((cutAbort_headWork x).trans (feedCutOver_feedOnly _).headWork)) pend
        rfl
      · rw [saw]
        simp [Saw.return_, hc]
      · rw [(raises .sawTimeout).2 (by simp [endRaises, feedRaises])]
        exact (raised_raise .sawTimeout .sawTimeout _).trans (by simp)
      · exact (RaisesOnly.of_raise (List.mem_cons_self ..) _).trans (raises.mono (by simp [endRaises, feedRaises]))
      · obtain ⟨hstate, hrequest, -⟩ := cutOver_decided s.part (cutAbort_cutTaken (p := x) taken)
          (by rw [(cutAbort_planWork x).saw]; simp [hx, Saw.return_]) pend
        exact ⟨hstate, hrequest⟩
    · rw [cutTimes_first state (by rw [hc]; exact attempt) away] at run
      set x : Part := { s.part with saw := s.part.saw.return_ .firstTimeout } with hx
      have work := cutAbort_planWork x
      have pend : (cutAbort x).boot.resetPending = none ∨ (cutAbort x).link.busOff = false := by
        rw [work.boot, work.busOff]
        exact quiet.pending
      obtain ⟨saw, image⟩ := timedOut_seen (p := s.part) (x := x) rfl work s.part pend
      refine ⟨_, run, (cutAbort_aborted (.of_conclude s.part pend) : CutAborted x _), ?_, image,
        fun _ => ⟨?_, fun wait => ?_, ?_⟩, fun k => absurd k attempt⟩
      · refine HeadWork.concluded s.part (HeadWork.trans ?_ (cutAbort_headWork x)) pend
        rfl
      · rw [saw]
        simp [Saw.return_, hc]
      · obtain ⟨hstate, hrequest, raises⟩ := cutAbort_cutWait (p := x) wait
        obtain ⟨feed, conditions⟩ := conclude_unheld s.part pend (holdPasses_of_state hstate (by simp) (by simp))
        rw [feed]
        exact ⟨hstate, hrequest, RaisesOnly.trans (p := s.part) raises (.of_conditions conditions)⟩
      · exact RaisesOnly.trans (p := s.part) ((cutAbort_works x).raises.mono (by simp [feedRaises]))
          ((conclude_raises s.part pend).mono (by simp [endRaises, feedRaises]))
  · have run : Runs .returnTimerExpiry s (conclude s.part (returnTimesOut s.part)) :=
      runs_on rfl (perform_on hon (Option.isSome_iff_ne_none.mpr timed))
    rw [returnTimesOut, if_pos state] at run
    set x := raise .sawJam { s.part with saw := { s.part.saw with state := .jammed, returnTimer := none } } with hx
    have only := feedCutOver_feedOnly x
    have pend : (feedCutOver x).boot.resetPending = none ∨ (feedCutOver x).link.busOff = false := by
      rw [only.boot, only.busOff]
      exact quiet.pending
    have fol : Follows x (conclude s.part (feedCutOver x)) := only.follows.trans (conclude_follows s.part pend)
    have conditions : (conclude s.part (feedCutOver x)).link.conditions = (feedCutOver x).link.conditions := by
      rcases taken : x.feed.cutTaken
      · refine (conclude_unheld s.part pend ?_).2
        rw [feedCutOver_untaken taken]
        exact quiet.holds
      · exact (cutOver_decided s.part taken (by simp [hx]) pend).2.2
    have raises : RaisesOnly feedRaises x (conclude s.part (feedCutOver x)) :=
      (feedCutOver_works x).raises.trans (.of_conditions conditions)
    refine ⟨_, run, fol.saw, ?_, ?_, fol.table, fun taken => ?_, fun untaken => ?_, ?_⟩
    · rw [(raises .sawJam).2 (by simp [feedRaises])]
      exact (raised_raise .sawJam .sawJam _).trans (by simp)
    · exact (RaisesOnly.of_raise (List.mem_cons_self ..) _).trans (raises.mono (by simp [feedRaises]))
    · obtain ⟨hstate, hrequest, -⟩ := cutOver_decided s.part (x := x) taken (by simp [hx]) pend
      exact ⟨hstate, hrequest⟩
    · have eq := feedCutOver_untaken (x := x) untaken
      rw [eq] at pend ⊢
      exact (conclude_unheld s.part pend quiet.holds).1
    · rw [fol.saw]
      refine Follows.trans ?_ fol
      rfl

end Sys2Proof.Machine
end

section
namespace Sys2Proof.Machine

/-! ### The saw parks -/

/-- The saw at rest in a state, its cycle record discarded. -/
def Saw.resting (w : Saw) (st : SawState) : Saw := { w with state := st, cycle := none, cutTimer := none, returnTimer := none }

/-- The part whose saw rests in a state. -/
def Part.sawResting (st : SawState) (p : Part) : Part := { p with saw := p.saw.resting st }

theorem sawFaults_eq (p : Part) : sawFaults p = p.sawResting .fault := rfl

theorem sawParks_grip {p : Part} (h : p.feed.state = .grip) : sawParks p = feedDecide (p.sawResting .parked) :=
  if_pos (c := (p.sawResting .parked).feed.state = .grip) h

theorem sawParks_otherwise {p : Part} (h : p.feed.state ≠ .grip) : sawParks p = p.sawResting .parked :=
  if_neg (c := (p.sawResting .parked).feed.state = .grip) h

theorem sawParks_feedOnly (p : Part) : FeedOnly (p.sawResting .parked) (sawParks p) := feedSawParked_feedOnly _

/-- With the bar out the value RUN gives STALLED or GRIP, and STALLED stands as the saw parks. -/
theorem decideRun_parks {p : Part} {r : Record} (out : p.saw.state ≠ .parked) (h : p.decideRun r ≠ .grip) :
    (p.sawResting .parked).decideRun r = p.decideRun r := by
  by_cases stalled : p.feed.stallOut = true
  · exact (if_pos stalled).trans (if_pos stalled).symm
  · exact absurd ((if_neg stalled).trans (if_pos out)) h

/-- What is decided with the bar out, but for GRIP, stands as the saw parks. -/
theorem decision_parks {p : Part} (out : p.saw.state ≠ .parked) (h : p.decision ≠ .grip) :
    (p.sawResting .parked).decision = p.decision := by
  have active : (p.sawResting .parked).activeRecord = p.activeRecord := rfl
  have monitor : (p.sawResting .parked).monitor = p.monitor := rfl
  have feed : (p.sawResting .parked).feed = p.feed := rfl
  simp only [Part.decision, active, monitor, feed] at h ⊢
  rcases record : p.activeRecord with _ | r
  · rfl
  by_cases works : p.monitor.profile.works = false
  · simp [works]
  by_cases taken : p.monitor.takeover.inForce = true
  · simp [works, taken]
  rcases value : p.feed.value
  · simp
  · simp
  · simp only [record, works, taken, value, Bool.false_eq_true, if_false, Bool.true_eq_false] at h ⊢
    exact decideRun_parks out h

/-- With the bar out, a feed in GRIP or in the state of its decision is in that of its decision once the saw has parked. -/
theorem sawParks_decides {p : Part} (out : p.saw.state ≠ .parked) (h : p.feed.state = .grip ∨ p.feed.state = p.decision) :
    (sawParks p).feed.state = (sawParks p).decision := by
  by_cases grip : p.feed.state = .grip
  · rw [sawParks_grip grip]
    exact decides_state _
  · have decided := h.resolve_left grip
    rw [sawParks_otherwise grip, decision_parks out (by rwa [← decided])]
    exact decided

theorem sawParks_unasked {p : Part} (h : p.feed.unasked) : (sawParks p).feed.unasked := by
  by_cases grip : p.feed.state = .grip
  · rw [sawParks_grip grip]
    exact feedDecide_unasked _
  · rw [sawParks_otherwise grip]
    exact h

theorem Over.of_sawResting {st : SawState} {x q : Part} (h : Over (x.sawResting st) q) : Over x q where
  table := h.table
  seen i := ⟨(h.seen i).record, (h.seen i).held, (h.seen i).corrections, (h.seen i).entry, (h.seen i).filler, (h.seen i).planEmpty⟩
  idle := h.idle
  carry := h.carry
  logPos := h.logPos
  history := h.history
  mid := h.mid
  list := h.list

theorem Over.of_feedSawParked {x q : Part} (h : Over (feedSawParked x) q) : Over x q where
  table := h.table.trans (feedSawParked_feedOnly x).table
  seen i := by
    have held : (feedSawParked x).feed.held = x.feed.held := by unfold feedSawParked; split <;> simp
    have corrections : (feedSawParked x).feed.corrections = x.feed.corrections := by unfold feedSawParked; split <;> simp
    exact ((feedSawParked_feedOnly x).armingSeen (feedSawParked_works x) held corrections (by simp [feedRaises])).trans (h.seen i)
  idle hs he := by
    rw [show feedSawParked x = x from if_neg (by simp [hs])] at h
    exact h.idle hs he
  carry := h.carry.trans (feedSawParked_feedOnly x).carry
  logPos := h.logPos.trans (feedSawParked_feedOnly x).logPos
  history := h.history.trans (by rw [feedSawParked_feedOnly x])
  mid := h.mid.trans (by rw [(feedSawParked_feedOnly x).diameter])
  list hb l hl h16 := h.list ((feedSawParked_feedOnly x).busOff.trans hb) l (hl.trans (feedSawParked_works x).list) h16

/-- From `x` to `q` the saw has come to rest, PARKED or in FAULT: as it parks a feed in GRIP has decided afresh, any other stays. -/
structure SawRests (st : SawState) (x q : Part) : Prop where
  saw : q.saw = x.saw.resting st
  decides : st = .parked → x.feed.state = .grip → q.feed.state = q.decision
  stays : st = .fault ∨ x.feed.state ≠ .grip → q.feed = x.feed
  follows : Follows { x with saw := q.saw } q
  raises : RaisesOnly [.stall, .diamReject] x q

section Rests

variable (b : Part) {x : Part} (pend : x.boot.resetPending = none ∨ x.link.busOff = false) (holds : x.holdPasses = false)
include pend

theorem sawParks_pending : (sawParks x).boot.resetPending = none ∨ (sawParks x).link.busOff = false := by
  rw [(sawParks_feedOnly x).boot, (sawParks_feedOnly x).busOff]
  exact pend

theorem sawParks_raises : RaisesOnly [.stall, .diamReject] x (conclude b (sawParks x)) :=
  ((sawParks_works x).raises.mono (by simp [feedRaises])).trans
    ((conclude_raises b (sawParks_pending pend)).mono (by simp [endRaises, feedRaises]))

include holds

theorem sawParks_rests : SawRests .parked x (conclude b (sawParks x)) := by
  have pend' := sawParks_pending pend
  have fol := (sawParks_feedOnly x).follows.trans (conclude_follows b pend')
  refine ⟨fol.saw, fun _ grip => conclude_decides b pend' ?_, fun other => ?_, ?_, sawParks_raises b pend⟩
  · rw [sawParks_grip grip]
    exact decides_state _
  · rw [sawParks_otherwise (other.resolve_left (by simp))] at pend' ⊢
    exact (conclude_unheld b pend' holds).1
  · rw [fol.saw]
    exact fol

theorem sawFaults_rests : SawRests .fault x (conclude b (sawFaults x)) := by
  have fol : Follows (x.sawResting .fault) (conclude b (sawFaults x)) := conclude_follows b pend
  obtain ⟨feed, conditions⟩ := conclude_unheld b (p := sawFaults x) pend holds
  exact ⟨fol.saw, nofun, fun _ => feed, by rw [fol.saw]; exact fol, .of_conditions conditions⟩

end Rests

/-! ### The bar home -/

/-- The part with the bar at home (log 16). -/
def Part.barIn (p : Part) : Part := { p with pins := { p.pins with homeClosed := true, endOfStroke := false } }

theorem Quiet.barIn {p : Part} (h : Quiet p) : Quiet p.barIn :=
  ⟨h.pending, h.holds, h.drop, h.slip, h.ready, h.knife, h.image, h.refresh, h.list⟩

theorem barHome_runs {s : State} (hon : s.part.powered = true) : Runs .barHome s (conclude s.part (barHomes s.part)) :=
  runs_on rfl (sense_on hon)

theorem barHomes_rest {p : Part} (h : p.saw.state = .parked ∨ p.saw.state = .advancing ∨ p.saw.state = .fault) :
    barHomes p = p.barIn := by
  unfold barHomes
  rcases h with h | h | h <;> rw [h] <;> rfl

theorem barHomes_returning {p : Part} (h : p.saw.state = .returning) : barHomes p = offerRequest (returnEnds p.barIn) := by
  unfold barHomes
  rw [h]
  rfl

theorem barHomes_manual {p : Part} (h : p.saw.state = .manual) : barHomes p = offerRequest (manualEnds p.barIn) := by
  unfold barHomes
  rw [h]
  rfl

theorem barHomes_jammed {p : Part} (h : p.saw.state = .jammed) : barHomes p = offerRequest (jamEnds p.barIn) := by
  unfold barHomes
  rw [h]
  rfl

section Ends

variable {p : Part} {c : Cycle} (hc : p.saw.cycle = some c)
include hc

/-- A return that has completed the cut, or whose request no longer stands, parks the saw (06 R128, R130). -/
theorem returnEnds_parks (h : c.cause = some .completed ∨ (c.cause = some .firstTimeout ∧ p.feed.request.standing = none)) :
    returnEnds p = sawParks p := by
  rcases h with h | ⟨h, standing⟩
  · simp [returnEnds, hc, h]
  · simp [returnEnds, hc, h, standing]

theorem returnEnds_faults (h : c.cause = some .secondTimeout) : returnEnds p = sawFaults p := by simp [returnEnds, hc, h]

theorem returnEnds_again {k : CutKind} (h : c.cause = some .firstTimeout) (taken : p.feed.request = .taken k) :
    returnEnds p = sawAdvances { c with kind := k, attempt := 2, cause := none } p := by
  simp [returnEnds, hc, h, taken, CutRequest.standing]

theorem manualEnds_parks (h : c.completionSeen = true) : manualEnds p = sawParks p := by simp [manualEnds, hc, h]

theorem manualEnds_aborts (h : c.completionSeen = false) :
    manualEnds p = if c.fromFault then sawFaults (cutAbort p) else sawParks (cutAbort p) := by simp [manualEnds, hc, h]

end Ends

theorem cutAbort_pending {p : Part} (pend : p.boot.resetPending = none ∨ p.link.busOff = false) :
    (cutAbort p).boot.resetPending = none ∨ (cutAbort p).link.busOff = false := by
  rw [(cutAbort_planWork p).boot, (cutAbort_planWork p).busOff]
  exact pend

/-- The bar home in a manual cycle before its cut completed: the cut aborts, and the saw is in FAULT again (06 R137). -/
theorem manualFault_seen (b : Part) {x : Part} (pend : x.boot.resetPending = none ∨ x.link.busOff = false) :
    (conclude b (sawFaults (cutAbort x))).saw = x.saw.resting .fault ∧ CutAborted x (conclude b (sawFaults (cutAbort x)))
      ∧ RaisesOnly [.stall, .diamReject] x (conclude b (sawFaults (cutAbort x))) := by
  have pend' := cutAbort_pending pend
  refine ⟨?_, cutAbort_aborted (.of_sawResting (.of_conclude b pend')), ?_⟩
  · rw [(conclude_follows b (p := sawFaults (cutAbort x)) pend').saw, sawFaults_eq, Part.sawResting, (cutAbort_planWork x).saw]
  · exact ((cutAbort_works x).raises.mono (by simp [feedRaises])).trans (RaisesOnly.trans (.of_conditions rfl)
      ((conclude_raises b (p := sawFaults (cutAbort x)) pend').mono (by simp [endRaises, feedRaises])))

/-- The same out of a cycle that began with the saw PARKED: it parks, and a feed in GRIP decides afresh (06 R137, 05 R117). -/
theorem manualPark_seen (b : Part) {x : Part} (pend : x.boot.resetPending = none ∨ x.link.busOff = false)
    (out : x.saw.state ≠ .parked) :
    (conclude b (sawParks (cutAbort x))).saw = x.saw.resting .parked ∧ CutAborted x (conclude b (sawParks (cutAbort x)))
      ∧ (x.feed.state = .grip →
        (conclude b (sawParks (cutAbort x))).feed.state = (conclude b (sawParks (cutAbort x))).decision)
      ∧ RaisesOnly [.stall, .diamReject] x (conclude b (sawParks (cutAbort x))) := by
  have saw := (cutAbort_planWork x).saw
  have pend' := sawParks_pending (cutAbort_pending pend)
  refine ⟨?_, cutAbort_aborted (.of_sawResting (.of_feedSawParked (.of_conclude b pend'))), fun grip => ?_, ?_⟩
  · rw [(conclude_follows b pend').saw, (sawParks_feedOnly _).saw, Part.sawResting, saw]
  · exact conclude_decides b pend' (sawParks_decides (by rwa [saw]) (cutAbort_grip grip))
  · exact ((cutAbort_works x).raises.mono (by simp [feedRaises])).trans (sawParks_raises b (cutAbort_pending pend))

end Sys2Proof.Machine
end

section
namespace Sys2Proof.Machine

/-- A request that waits in CUT_WAIT is taken as the saw parks (06 R126, R128). -/
theorem parks_takesUp (b : Part) {x : Part} {k : CutKind} (pend : x.boot.resetPending = none ∨ x.link.busOff = false)
    (wait : x.feed.state = .cutWait) (request : x.feed.request = .waiting k) (stroke : x.pins.endOfStroke = false) :
    TakenUp k (x.sawResting .parked) (conclude b (offerRequest (sawParks x))) := by
  rw [sawParks_otherwise (by simp [wait])]
  exact offerRequest_takenUp b (offerRequest (x.sawResting .parked)).link.sendList (w := x.sawResting .parked) wait request rfl
    stroke pend

/-- The request that still stands after a first timeout is tried again (06 R130). -/
theorem advancesAgain_seen (b : Part) (c : Cycle) {x : Part} (pend : x.boot.resetPending = none ∨ x.link.busOff = false)
    (wait : x.feed.state = .cutWait) (taken : x.feed.unasked) (stroke : x.pins.endOfStroke = false) :
    Advanced c x (conclude b (offerRequest (sawAdvances c x))) := by
  have unasked : (sawAdvances c x).feed.unasked := by
    rw [sawAdvances_open c stroke, (cutStart_cutWait c.kind (p := advancingUnder c x) wait).1]
    exact taken
  rw [offerRequest_idle unasked]
  exact sawAdvances_advanced b c (sawAdvances c x).link.sendList wait stroke pend

/-- The saw state in which a jam ends with the bar home, by its cause (06 R134). -/
def jamRest : Option ReturnCause → SawState
  | none => .parked
  | some .completed => .parked
  | some .firstTimeout => .fault
  | some .secondTimeout => .fault

theorem jamEnds_rests (b : Part) {x : Part} (pend : x.boot.resetPending = none ∨ x.link.busOff = false)
    (holds : x.holdPasses = false) (unasked : x.feed.unasked) :
    SawRests (jamRest (x.saw.cycle.bind (·.cause))) x (conclude b (offerRequest (jamEnds x))) := by
  have parks := sawParks_rests b pend holds
  have faults := sawFaults_rests b pend holds
  rw [← offerRequest_idle (sawParks_unasked unasked)] at parks
  rw [← offerRequest_idle (p := sawFaults x) unasked] at faults
  unfold jamEnds
  rcases x.saw.cycle.bind (·.cause) with _ | _ | _ | _
  · exact parks
  · exact parks
  · exact faults
  · exact faults

theorem manualEnds_boot (p : Part) : (manualEnds p).boot = p.boot := by
  unfold manualEnds
  split
  · exact (sawParks_works p).boot
  · split
    · exact (sawParks_works p).boot
    · split
      · exact (cutAbort_works p).boot
      · exact (sawParks_works _).boot.trans (cutAbort_works p).boot

theorem jamEnds_boot (p : Part) : (jamEnds p).boot = p.boot := by
  unfold jamEnds
  split
  · rfl
  · rfl
  · exact (sawParks_works p).boot
  · exact (sawParks_works p).boot

theorem barHomes_boot (p : Part) : (barHomes p).boot = p.boot := by
  unfold barHomes
  dsimp only
  split
  · exact (offerRequest_works _).boot.trans (returnEnds_works _).boot
  · exact (offerRequest_works _).boot.trans (manualEnds_boot _)
  · exact (offerRequest_works _).boot.trans (jamEnds_boot _)
  all_goals rfl

/-- The bar home is the head's work, seen once the event is over. -/
theorem barHome_headWork (b : Part) {p : Part} (pend : p.boot.resetPending = none ∨ p.link.busOff = false) :
    HeadWork p.barIn (conclude b (barHomes p)) := by
  refine (barHomes_headWork p).concluded b ?_
  rw [barHomes_boot, (barHomes_headWork p).busOff]
  exact pend

/-- Settles O51: by the saw's state and its cycle record; each end of a cycle is seen by the lemma that names it. -/
theorem barHomeEndsTheCycle : Obligations.BarHomeEndsTheCycle := by
  intro s hs hon
  have quiet := (hs.quiet hon).barIn
  have pend := quiet.pending
  have run := barHome_runs hon
  have work := barHome_headWork s.part (p := s.part) pend
  refine ⟨fun k c (request : s.part.barIn.feed.request = .waiting k) wait state
      (hc : s.part.barIn.saw.cycle = some c) cause => ?_,
    fun (unasked : s.part.barIn.feed.unasked) => ⟨fun rest => ?_,
      fun c state (hc : s.part.barIn.saw.cycle = some c) => ⟨fun why => ?_,
        fun k cause (request : s.part.barIn.feed.request = .taken k) wait => ?_, fun cause => ?_⟩,
      fun c state (hc : s.part.barIn.saw.cycle = some c) => ⟨fun seen => ?_, fun unseen => ?_⟩, fun state => ?_⟩⟩
  · have standing : s.part.barIn.feed.request.standing = none := by rw [request]; rfl
    have ends := returnEnds_parks hc (cause.imp_right fun h => ⟨h, standing⟩)
    rw [barHomes_returning state, ends] at run work
    have taken := parks_takesUp s.part pend wait request rfl
    refine ⟨_, run, taken.saw, taken.started.begun rfl rfl, by rw [taken.feed]; exact wait, by rw [taken.feed], work⟩
  · rw [barHomes_rest rest, quiet.conclude_self s.part rfl rfl] at run
    exact run
  · have standing : s.part.feed.request = .none → s.part.barIn.feed.request.standing = none :=
      fun h => congrArg CutRequest.standing h
    have ends := returnEnds_parks hc (why.imp_right fun ⟨h, request⟩ => ⟨h, standing request⟩)
    rw [barHomes_returning state, ends, offerRequest_idle (sawParks_unasked unasked)] at run
    have rests := sawParks_rests s.part pend quiet.holds
    exact ⟨_, run, rests.saw, rests.decides rfl, fun h => rests.stays (.inr h), rests.follows, rests.raises⟩
  · rw [barHomes_returning state, returnEnds_again hc cause request] at run work
    have adv := advancesAgain_seen s.part { c with kind := k, attempt := 2, cause := none } pend wait unasked rfl
    exact ⟨_, run, adv.saw, adv.started.begun rfl rfl, by rw [adv.feed]; exact wait, by rw [adv.feed]; exact request, work⟩
  · rw [barHomes_returning state, returnEnds_faults hc cause, offerRequest_idle (p := sawFaults s.part.barIn) unasked] at run
    have rests := sawFaults_rests s.part pend quiet.holds
    exact ⟨_, run, rests.saw, rests.stays (.inl rfl), rests.follows⟩
  · rw [barHomes_manual state, manualEnds_parks hc seen, offerRequest_idle (sawParks_unasked unasked)] at run
    have rests := sawParks_rests s.part pend quiet.holds
    exact ⟨_, run, rests.saw, rests.decides rfl, fun h => rests.stays (.inr h), rests.follows, rests.raises⟩
  · have aborted := cutAbort_unasked unasked
    rw [barHomes_manual state, manualEnds_aborts hc unseen] at run work
    rcases fault : c.fromFault
    · rw [fault, if_neg (by simp), offerRequest_idle (sawParks_unasked aborted)] at run work
      obtain ⟨saw, abort, decides, raises⟩ := manualPark_seen s.part pend (by simp [Part.barIn, state])
      exact ⟨_, run, saw, abort, fun _ => decides, work, raises⟩
    · rw [fault, if_pos rfl, offerRequest_idle (p := sawFaults _) aborted] at run work
      obtain ⟨saw, abort, raises⟩ := manualFault_seen s.part pend
      exact ⟨_, run, saw, abort, nofun, work, raises⟩
  · rw [barHomes_jammed state] at run
    have rests := jamEnds_rests s.part pend quiet.holds unasked
    have inState := congrArg Saw.state rests.saw
    exact ⟨_, run, rests.saw, fun h => rests.decides (inState.symm.trans h),
      fun h => rests.stays (h.imp_left inState.symm.trans), rests.follows, rests.raises⟩

end Sys2Proof.Machine
end

section
namespace Sys2Proof.Machine

/-! ### Every event leaves the part settled -/

theorem Settled.of_unpowered {p : Part} (h : p.powered = false) : Settled p := fun on => by
  rw [h] at on
  cases on

theorem perform_settled (may : Bool) (f : Part → Part) {p : Part} (h : Settled p) : Settled (perform may f p) := by
  unfold perform
  split
  · exact conclude_settled p (f p)
  · exact h

theorem sense_settled (f : Part → Part) (pins : Pins → Pins) (p : Part) : Settled (sense f pins p) := by
  unfold sense
  split
  · exact conclude_settled p (f p)
  next off => exact .of_unpowered (by simpa using off)

theorem request_settled (code : Byte) (need : List Byte → Nat) (handler : List Byte → Part → Reply) {p : Part} (h : Settled p) :
    Settled (request code need handler p) := perform_settled _ _ h

/-- Every row is a matter of `perform`, of `sense`, of a request, or of power. -/
theorem exec_settled {c : Instr} {s s' : State} (hs : Settled s.part) (h : exec c s = .next s') : Settled s'.part := by
  have on : ∀ f : Part → Part, s.on f = .next s' → Settled (f s.part) → Settled s'.part := by
    intro f e k
    obtain rfl := Host.Outcome.next.inj e
    exact k
  cases c with
  | powerOn straps => exact on _ h (conclude_settled _ _)
  | lossOfPower => exact on _ h (.of_unpowered rfl)
  | wheelContactSwitch closed => exact on _ h (sense_settled _ _ _)
  | endSensorChange covered => exact on _ h (sense_settled _ _ _)
  | armLineReading l x => exact on _ h (sense_settled _ _ _)
  | barLeavesHome => exact on _ h (sense_settled _ _ _)
  | endOfStroke => exact on _ h (sense_settled _ _ _)
  | barHome => exact on _ h (sense_settled _ _ _)
  | status | readConditions | setMasks | setProfile | setFeed | knifeOverride | takeover | cutNow | openStem | attachStem
  | finishStem | retireStem | readStem | readEntries | appendEntry | insertEntry | changeEntry | cancelEntry | readSpecies
  | writeSpecies | clearSpecies | calibrate | readSetting | writeSetting | store | reset =>
    exact on _ h (request_settled _ _ _ hs)
  | requestFrame _ | badRequest | storeCompletion _ | startupDeadline | frameTransmitted | transmitError | busOffRecovery
  | valveRefreshExpiry | stickFrame _ | takeoverReleaseExpiry | advanceExpectationExpiry | wheelCount _ | rollerCount _
  | gripSampleExpiry | lineOutOfWindowExpiry _ | lineInWindowExpiry _ | dropTimerExpiry | settleTimerExpiry
  | stallTimerExpiry | cutTimerExpiry | returnTimerExpiry =>
    exact on _ h (perform_settled _ _ hs)

/-! ### A millisecond -/

/-- A millisecond changes no line's supervision state. -/
theorem tick_lineState (u : LineUnit) : u.tick.state = u.state := by
  unfold LineUnit.tick
  split <;> rfl

/-- The part with every running timer one millisecond on. -/
def Part.ticked (p : Part) : Part :=
  { p with
    boot := { p.boot with elapsed := tick p.boot.elapsed }
    diameter := p.diameter.tick
    feed := p.feed.tick
    saw := p.saw.tick
    monitor := { p.monitor with takeover := p.monitor.takeover.tick }
    store := { p.store with inFlight := tick p.store.inFlight }
    link := { p.link with refresh := tick p.link.refresh } }

theorem millisecond_eq (p : Part) : millisecond p = if p.powered then p.ticked else p := rfl

theorem ticked_line (p : Part) (l : Line) : (p.ticked.line l).state = (p.line l).state :=
  (congrArg LineUnit.state (Vector.getElem_map ..)).trans (tick_lineState _)

theorem tick_inForce (t : Takeover) : t.tick.inForce = t.inForce := by cases t <;> rfl

/-! ### What the end of an event reads -/

theorem usable_congr {p q : Part} {l : Line} (enabled : q.lineEnabled l = p.lineEnabled l)
    (state : (q.line l).state = (p.line l).state) (out : q.outOfWindow l = p.outOfWindow l) : q.usable l = p.usable l := by
  unfold Part.usable
  rw [enabled, state, out]

/-- Whether the stem is gone turns on the ACTIVE record, the usable lines with their estimates, and DROP_DIAMETER. -/
theorem stemGone_congr {p q : Part} (active : q.hasActive = p.hasActive) (usable : ∀ l, q.usable l = p.usable l)
    (estimate : ∀ l, q.estimate l = p.estimate l) (least : q.setting 33 = p.setting 33) : q.stemGone = p.stemGone := by
  unfold Part.stemGone Part.watchedTwice Part.knifeTwice Part.rlEstimate
  simp only [active, usable, estimate, least]

theorem linesReady_congr {p q : Part} (enabled : ∀ l, q.lineEnabled l = p.lineEnabled l)
    (state : ∀ l, (q.line l).state = (p.line l).state) : q.linesReady = p.linesReady := by
  unfold Part.linesReady
  simp only [enabled, state]

theorem knifeState_congr {p q : Part} (takeover : q.monitor.takeover.inForce = p.monitor.takeover.inForce)
    (profile : q.monitor.profile = p.monitor.profile) (active : q.hasActive = p.hasActive)
    (feed : q.feed.state = p.feed.state) (saw : q.saw.state = p.saw.state) : q.knifeState = p.knifeState := by
  unfold Part.knifeState
  rw [takeover, profile, active, feed, saw]

theorem nextKnife_congr {p q : Part} (held : q.knife = p.knife) (state : q.knifeState = p.knifeState)
    (pressure : ∀ k, q.knifePressure k = p.knifePressure k) : q.nextKnife = p.nextKnife := by
  unfold Part.nextKnife
  rw [held, state, pressure]

theorem nextImage_congr {p q : Part} (feed : q.feedDemand = p.feedDemand) (knife : q.nextKnife = p.nextKnife)
    (saw : q.saw.demand = p.saw.demand) : q.nextImage = p.nextImage := by
  have demand : Part.knifeDemand { q with knife := q.nextKnife } = Part.knifeDemand { p with knife := p.nextKnife } := by
    unfold Part.knifeDemand
    rw [knife]
  unfold Part.nextImage
  rw [feed, demand, saw]

/-! ### A millisecond leaves a settled part settled -/

theorem Quiet.ticked {p : Part} (h : Quiet p) : Quiet p.ticked := by
  have line := ticked_line p
  have gone : p.ticked.stemGone = p.stemGone :=
    stemGone_congr rfl (fun l => usable_congr rfl (line l) rfl) (fun _ => rfl) rfl
  have knife : p.ticked.nextKnife = p.nextKnife :=
    nextKnife_congr rfl (knifeState_congr (tick_inForce _) rfl rfl rfl rfl) fun _ => rfl
  have ready : p.ticked.linesReady = p.linesReady := linesReady_congr (fun _ => rfl) line
  refine ⟨h.pending, h.holds, ?_, h.slip, by rw [ready]; exact h.ready, h.knife.trans knife.symm,
    h.image.trans (nextImage_congr (p := p) (q := p.ticked) rfl knife rfl).symm, fun off => ?_, h.list⟩
  · rw [gone]
    change tick p.diameter.dropTimer = if p.stemGone then some ((tick p.diameter.dropTimer).getD 0) else none
    rw [h.drop]
    cases p.stemGone <;> rfl
  · change tick p.link.refresh = none
    rw [h.refresh off]
    rfl

theorem millisecond_settled {p : Part} (h : Settled p) : Settled (millisecond p) := by
  rw [millisecond_eq]
  split
  next on => exact fun _ => (h.quiet on).ticked.settled
  · exact h

theorem step_settled {s s' : State} (hs : Settled s.part) (h : step s = .next s') : Settled s'.part := by
  unfold step at h
  split at h
  · unfold idle at h
    split at h
    · exact exec_settled hs h
    · obtain rfl := Host.Outcome.next.inj h
      exact millisecond_settled hs
  next c rest _ => exact exec_settled (s := { s with pending := rest }) hs h

/-! ### What a settled part holds -/

theorem Quiet.imageFeed {p : Part} (h : Quiet p) : p.link.image.feed = p.feedDemand := congrArg Image.feed h.image

theorem Quiet.imageKnife {p : Part} (h : Quiet p) : p.link.image.knife = p.knifeDemand := by
  rw [h.image]
  change Part.knifeDemand { p with knife := p.nextKnife } = _
  rw [← h.knife]

theorem Quiet.imageSaw {p : Part} (h : Quiet p) : p.link.image.saw = p.saw.demand := congrArg Image.saw h.image

/-- Clamping knives have a demanded pressure (07 R148, R153). -/
theorem Quiet.clamping {p : Part} (h : Quiet p) (ho : p.knife.state ≠ .opened) (hy : p.knife.state ≠ .yielded) :
    ∃ x, p.knife.pressure = some x := by
  have state : p.knife.state = p.knifeState := congrArg Knife.state h.knife
  have pressure : p.knife.pressure = p.knifePressure p.knifeState := congrArg Knife.pressure h.knife
  rw [pressure, ← state]
  unfold Part.knifePressure
  split
  next k => exact absurd k ho
  next k => exact absurd k hy
  · exact ⟨_, rfl⟩

theorem Quiet.demandsPlaced {p : Part} (h : Quiet p) : DemandsPlaced p := by
  unfold DemandsPlaced
  dsimp only
  rw [h.imageFeed, h.imageKnife, h.imageSaw]
  unfold Part.feedDemand Part.knifeDemand Saw.demand
  refine ⟨?_, ?_, ?_, ?_, ?_, fun k => by rw [k], fun k => by rw [k], fun k => ?_, ?_, fun k => by rw [k], ?_,
    fun c k hc => by rw [k, hc]; rfl⟩
  · rintro (k | k) <;> rw [k]
  · rintro (k | k | k | k) <;> rw [k]
  · rintro (k | k | k) <;> rw [k]
  · rintro (k | k) <;> rw [k]
  · rintro (k | k) <;> rw [k]
  · obtain ⟨x, hx⟩ := h.clamping (by rcases k with k | k | k <;> simp [k]) (by rcases k with k | k | k <;> simp [k])
    refine ⟨x, hx, ?_⟩
    rcases k with k | k | k <;> simp [k, hx]
  · rintro (k | k) <;> rw [k]
  · rintro (k | k) <;> rw [k]

/-- The watched estimate is RL's, else the mean of the usable knife lines' (04 R90). -/
theorem stemGone_iff (p : Part) : p.stemGone = true ↔ p.hasActive = true ∧
    ((p.usable .rl = true ∧ p.estimate .rl < 1000 * p.setting 33)
      ∨ (p.usable .rl = false ∧ p.usable .ka = true ∧ p.usable .kb = true
          ∧ p.estimate .ka + p.estimate .kb < 2 * (1000 * p.setting 33))
      ∨ (p.usable .rl = false ∧ p.usable .ka = true ∧ p.usable .kb = false ∧ p.estimate .ka < 1000 * p.setting 33)
      ∨ (p.usable .rl = false ∧ p.usable .ka = false ∧ p.usable .kb = true ∧ p.estimate .kb < 1000 * p.setting 33)) := by
  have twice : ∀ x : Int, 2 * x < 2000 * p.setting 33 ↔ x < 1000 * p.setting 33 := fun x => by omega
  have both : 2 * (1000 * p.setting 33) = 2000 * p.setting 33 := by omega
  unfold Part.stemGone Part.watchedTwice Part.rlEstimate Part.knifeTwice
  rw [both]
  rcases p.usable .rl <;> rcases p.usable .ka <;> rcases p.usable .kb <;> simp [twice]

theorem Quiet.dropWatched {p : Part} (h : Quiet p) : DropWatched p := by
  refine ⟨fun active below => ?_, fun k => ?_⟩
  · rw [h.drop, if_pos ((stemGone_iff p).mpr ⟨active, below⟩)]
    exact Option.some_ne_none _
  · rw [h.drop, if_neg]
    intro gone
    obtain ⟨active, below⟩ := (stemGone_iff p).mp gone
    rcases k with k | k
    · rw [active] at k
      cases k
    · exact k below

/-- The part demands forward in exactly the states that head forward, at one of the species' speeds. -/
theorem feedDemand_forward (p : Part) :
    p.feedDemand = .forward (p.speciesValue (·.feedApproach)) ∨ p.feedDemand = .forward (p.speciesValue (·.feedMax))
      ↔ p.feed.state.heading = some .forward := by
  unfold Part.feedDemand FeedState.heading
  rcases p.feed.state with _ | _ | _ | _ | _ | _ | (_ | _) | _ | (_ | _) | _ | _ <;> simp

theorem Quiet.slipWatched {p : Part} (h : Quiet p) : SlipWatched p := by
  unfold SlipWatched
  dsimp only
  rw [h.imageFeed, feedDemand_forward, ← slipRuns_iff, h.slip]
  constructor <;> intro runs <;> simp [runs]

theorem linesReady_iff (p : Part) : p.linesReady = true ↔ ∀ l, p.lineEnabled l = true → (p.line l).state = .ok := by
  have all : p.linesReady = true ↔ ∀ l ∈ [Line.ka, .kb, .rl], p.lineEnabled l = true → (p.line l).state = .ok := by
    unfold Part.linesReady
    rw [List.all_eq_true]
    refine forall₂_congr fun l _ => ?_
    rcases p.lineEnabled l <;> simp
  rw [all]
  exact ⟨fun h l => h l (by cases l <;> simp), fun h l _ => h l⟩

theorem Quiet.watchesKept {p : Part} (h : Quiet p) : WatchesKept p := by
  refine ⟨h.demandsPlaced, h.dropWatched, h.slipWatched, fun free feeds => ?_, fun lines => ?_, h.refresh⟩
  · by_contra thin
    have passes := (holdPasses_iff p).mpr ⟨by simpa using thin, feeds, free⟩
    rw [h.holds] at passes
    cases passes
  · have ready := h.ready
    rw [(linesReady_iff p).mpr lines] at ready
    simpa using ready

/-- Settles O54: a command's event ends in `conclude`, after which a part is settled, and a millisecond touches nothing that the end
of an event reads; what a settled part holds is read off `Quiet`. -/
theorem everyStepKeepsSettled : Obligations.EveryStepKeepsSettled :=
  ⟨fun _ _ hs h => step_settled hs h, fun _ hs on => (hs.quiet on).watchesKept⟩

end Sys2Proof.Machine
end
section
namespace Sys2Proof.Machine

/-! ### What is in force, and its change -/

/-- Where neither what is in force nor the scales change, a change marks and discards nothing (03 R59, R68). -/
theorem rescale_idle {p q : Part} (inForce : p.inForce = q.inForce) (scales : p.scales = q.scales) : rescale p q = q := by
  unfold rescale
  dsimp only
  rw [if_pos inForce, if_pos scales]

theorem rescale_history (p q : Part) : (rescale p q).length.history = if p.inForce = q.inForce then q.length.history
    else q.length.history.map fun h => { h with mark := .mixed } := by
  unfold rescale
  dsimp only
  split <;> rfl

theorem rescale_window (p q : Part) : (rescale p q).length.slip = if p.scales = q.scales then q.length.slip else none := by
  unfold rescale
  dsimp only
  by_cases h : p.inForce = q.inForce
  · rw [if_pos h]
  · rw [if_neg h]
    rfl

/-- A change of scale touches the marks of log and carry and the slip window alone. -/
theorem rescale_eqn (p q : Part) : rescale p q = { q with length := { q.length with
    history := (rescale p q).length.history, carry := (rescale p q).length.carry, slip := (rescale p q).length.slip } } := by
  unfold rescale
  dsimp only
  split <;> rfl

theorem scales_congr {p q : Part} (store : q.store = p.store) (table : q.table = p.table) : q.scales = p.scales := by
  have setting : ∀ n, q.setting n = p.setting n := fun n => by unfold Part.setting; rw [store]
  unfold Part.scales Part.wheelPitch Part.rollerPitch Part.wheelCorr Part.rollerCorr
  simp only [setting, speciesValue_congr table store]

/-- The change `x` of a part `p`, seen once the event is over: log and carry are marked and the window discarded as `Rescaled`
has it. -/
theorem conclude_rescaled {p x y : Part} (b : Part) (pend : y.boot.resetPending = none ∨ y.link.busOff = false)
    (history : x.length.history = p.length.history) (carry : x.length.carry = p.length.carry)
    (slip : x.length.slip = p.length.slip) (table : y.table = x.table) (store : y.store = x.store)
    (length : y.length = (rescale p x).length) : Rescaled p (conclude b y) := by
  have fol := conclude_follows b pend
  have closes := conclude_slip b pend
  have inForce : (conclude b y).inForce = x.inForce :=
    fol.inForce.trans (inForce_congr store table (by rw [length, rescale_contact]) (by rw [length, rescale_suspect]))
  have scales : (conclude b y).scales = x.scales := (scales_congr fol.headWork.store fol.table).trans (scales_congr store table)
  have hist : (conclude b y).length.history = y.length.history := by rw [fol]
  unfold Rescaled
  rw [inForce, scales, hist, fol.carry, closes, length, rescale_history, rescale_carry, rescale_window, history, carry, slip]
  refine ⟨?_, ?_, fun same => by rw [if_pos same], fun other => by rw [if_neg other]; rfl⟩
  · split
    · exact Option.map_id'.symm
    · rfl
  · split
    · exact Option.map_id'.symm
    · rfl

end Sys2Proof.Machine
end

section
namespace Sys2Proof.Machine

/-! ### The levels at the pins -/

/-- No hold comes where nothing that the watch reads has changed (04 R92). -/
theorem holdPasses_congr {p q : Part} (entry : q.diameter.entry = p.diameter.entry) (samples : q.diameter.samples = p.diameter.samples)
    (hold : q.diameter.hold = p.diameter.hold) (feed : q.feed.state = p.feed.state) : q.holdPasses = p.holdPasses := by
  unfold Part.holdPasses Part.currentDiameter
  rw [entry, samples, hold, feed]

/-- A sensed level that leaves feed, hold and conditions: what the end of the event leaves of them. -/
theorem sensed_ends {p x : Part} (quiet : Quiet p) (boot : x.boot = p.boot) (feed : x.feed = p.feed) (link : x.link = p.link)
    (entry : x.diameter.entry = p.diameter.entry) (samples : x.diameter.samples = p.diameter.samples)
    (hold : x.diameter.hold = p.diameter.hold) :
    (conclude p x).feed = p.feed ∧ (conclude p x).link.conditions = p.link.conditions ∧ Follows x (conclude p x) := by
  have pend : x.boot.resetPending = none ∨ x.link.busOff = false := by
    rw [boot, link]
    exact quiet.pending
  obtain ⟨hfeed, hconditions⟩ := conclude_unheld p pend
    ((holdPasses_congr entry samples hold (by rw [feed])).trans quiet.holds)
  exact ⟨hfeed.trans feed, by rw [hconditions, link], conclude_follows p pend⟩

/-! ### The wheel contact switch -/

/-- The part whose contact switch has gone to a level (03 R55). -/
def Part.contactAt (p : Part) (closed : Bool) : Part :=
  { p with
    pins := { p.pins with wheelClosed := closed }
    length := { p.length with contact := if closed then .seating 0 else .lifted } }

theorem contactLevel_same {p : Part} {closed : Bool} (h : p.pins.wheelClosed = closed) : contactLevel closed p = p := by
  unfold contactLevel
  rw [if_pos h.symm]

theorem contactLevel_changed {p : Part} {closed : Bool} (h : p.pins.wheelClosed = !closed) :
    contactLevel closed p = rescale p (p.contactAt closed) := by
  unfold contactLevel
  rw [if_neg (by simp [h])]
  rfl

/-! ### The end sensor -/

/-- The part whose end sensor has gone to a level: a change is noted as pending, or the pending one is discarded (03 R73). -/
def Part.endSensorAt (p : Part) (covered : Bool) : Part :=
  { p with
    pins := { p.pins with endCovered := covered }
    length := { p.length with endPending := if covered = p.length.endCovered then none else some p.length.head } }

theorem endSensorLevel_same {p : Part} {covered : Bool} (h : p.pins.endCovered = covered) : endSensorLevel covered p = p := by
  unfold endSensorLevel
  rw [if_pos h.symm]

theorem endSensorLevel_changed {p : Part} {covered : Bool} (h : p.pins.endCovered = !covered) :
    endSensorLevel covered p = p.endSensorAt covered := by
  unfold endSensorLevel
  rw [if_neg (by simp [h])]
  rfl

theorem Quiet.endSensorAt {p : Part} (h : Quiet p) (covered : Bool) : Quiet (p.endSensorAt covered) :=
  ⟨h.pending, h.holds, h.drop, h.slip, h.ready, h.knife, h.image, h.refresh, h.list⟩

/-! ### The arm lines -/

theorem lineIdx_inj {l l' : Line} (h : (lineIdx l).val = (lineIdx l').val) : l = l' := by
  cases l <;> cases l' <;> simp_all [lineIdx]

theorem line_setLine_self (p : Part) (l : Line) (u : LineUnit) : (p.setLine l u).line l = u := Vector.getElem_set_self ..

theorem line_setLine_ne (p : Part) {l l' : Line} (h : l' ≠ l) (u : LineUnit) : (p.setLine l u).line l' = p.line l' :=
  Vector.getElem_set_ne (lineIdx l).isLt (lineIdx l').isLt fun e => h (lineIdx_inj e).symm

theorem setLine_line (p : Part) (l : Line) : p.setLine l (p.line l) = p := by
  unfold Part.setLine Part.line
  rw [show p.diameter.lines.set (lineIdx l).val p.diameter.lines[lineIdx l] (lineIdx l).isLt = p.diameter.lines from
    Vector.set_getElem_self ..]

/-- The part with another reading at a line's pin. -/
def Part.readingAt (p : Part) (l : Line) (x : BitVec 12) : Part :=
  { p with pins := { p.pins with readings := p.pins.readings.set (lineIdx l).val x (lineIdx l).isLt } }

/-- What the supervision of a line makes of its new reading (04 R78): a DISABLED line times no run. -/
def Part.lineSeen (p : Part) (l : Line) (x : BitVec 12) : LineUnit :=
  if (p.line l).state = .disabled then p.line l
  else (p.line l).see ((p.outOfWindow l).isSome != ((p.readingAt l x).outOfWindow l).isSome) ((p.readingAt l x).outOfWindow l)

/-- A fresh run begins where the reading has crossed the edge of the window. -/
theorem see_run (u : LineUnit) (before after : Bool) (now : Option FaultKind) :
    (u.see (before != after) now).run = if before = after then u.run else some 0 := by
  cases before <;> cases after <;> rfl

theorem lineReads_eq (l : Line) (x : BitVec 12) (p : Part) : lineReads l x p = (p.readingAt l x).setLine l (p.lineSeen l x) := by
  unfold lineReads Part.lineSeen
  dsimp only
  split
  · exact (setLine_line (p.readingAt l x) l).symm
  · rfl

/-- Settles O42: each row is `sense`; an unchanged level leaves the part, a change of the end sensor is nothing that the end of an
event reads, a contact may change the source (`conclude_rescaled`), and a reading touches its line. -/
theorem sensorLevelsAreTaken : Obligations.SensorLevelsAreTaken := by
  intro s hs on
  have quiet := hs.quiet on
  refine ⟨fun closed same => ?_, fun closed other => ?_, fun covered same => ?_, fun covered other => ?_, fun l x => ?_⟩
  · refine runs_on rfl ((sense_on on).trans ?_)
    rw [contactLevel_same same, quiet.settled]
  · have run : Runs (.wheelContactSwitch closed) s (conclude s.part (rescale s.part (s.part.contactAt closed))) :=
      runs_on rfl ((sense_on on).trans (by rw [contactLevel_changed other]))
    obtain ⟨feed, conditions, fol⟩ := sensed_ends (x := rescale s.part (s.part.contactAt closed)) quiet rfl rfl rfl rfl rfl rfl
    have scaled : Rescaled s.part (conclude s.part (rescale s.part (s.part.contactAt closed))) :=
      conclude_rescaled (x := s.part.contactAt closed) s.part quiet.pending rfl rfl rfl rfl rfl rfl
    refine ⟨_, run, ?_, feed, conditions, scaled, ?_⟩
    · rw [fol]
      exact rescale_contact _ _
    · rw [rescale_eqn] at fol ⊢
      unfold Follows at fol ⊢
      rw [fol]
      rfl
  · refine runs_on rfl ((sense_on on).trans ?_)
    rw [endSensorLevel_same same, quiet.settled]
  · refine runs_on rfl ((sense_on on).trans ?_)
    rw [endSensorLevel_changed other]
    exact (quiet.endSensorAt covered).conclude_self s.part rfl rfl
  · have run : Runs (.armLineReading l x) s (conclude s.part ((s.part.readingAt l x).setLine l (s.part.lineSeen l x))) :=
      runs_on rfl ((sense_on on).trans (by rw [lineReads_eq]))
    obtain ⟨feed, conditions, fol⟩ := sensed_ends (x := (s.part.readingAt l x).setLine l (s.part.lineSeen l x)) quiet
      rfl rfl rfl rfl rfl rfl
    set q := conclude s.part ((s.part.readingAt l x).setLine l (s.part.lineSeen l x)) with hq
    have line : ∀ l', q.line l' = ((s.part.readingAt l x).setLine l (s.part.lineSeen l x)).line l' := fun l' => by
      rw [fol]
      rfl
    have own : q.line l = s.part.lineSeen l x := (line l).trans (line_setLine_self _ l _)
    have out : q.outOfWindow l = (s.part.readingAt l x).outOfWindow l := by
      rw [fol]
      rfl
    refine ⟨q, run, by rw [fol]; rfl, fun disabled => ?_, fun enabled => ?_, fun l' h => (line l').trans (line_setLine_ne _ h _),
      feed, conditions, ?_⟩
    · rw [own, Part.lineSeen, if_pos disabled]
    · rw [own, out, Part.lineSeen, if_neg enabled]
      exact ⟨see_run .., rfl⟩
    · unfold Follows at fol ⊢
      rw [fol]
      rfl

end Sys2Proof.Machine
end
section
namespace Sys2Proof.Machine

/-! ### A working copy with one value changed -/

/-- The part with a setting at a value. -/
def Part.withSetting (p : Part) (n : Fin 40) (v : Int) : Part :=
  { p with store := { p.store with working := { p.store.working with
    settings := p.store.working.settings.set n.val v n.isLt } } }

/-- The part with a species record replaced. -/
def Part.withSpecies (p : Part) (c : Fin 32) (x : Species) : Part :=
  { p with store := { p.store with working := { p.store.working with
    species := p.store.working.species.set c.val x c.isLt } } }

theorem setSetting_eq (n : Fin 40) (v : Int) (p : Part) : setSetting n v p = rescale p (p.withSetting n v) := rfl

theorem setSpecies_eq (c : Fin 32) (x : Species) (p : Part) : setSpecies c x p = rescale p (p.withSpecies c x) := rfl

theorem withSetting_setting (p : Part) (n m : Fin 40) (v : Int) :
    (p.withSetting n v).setting m = if n = m then v else p.setting m := by
  unfold Part.setting Part.withSetting
  by_cases h : n = m
  · subst h
    simp
  · have hv : n.val ≠ m.val := fun e => h (Fin.ext e)
    simp [h, hv]

theorem withSetting_ne (p : Part) {n m : Fin 40} (h : n ≠ m) (v : Int) : (p.withSetting n v).setting m = p.setting m := by
  rw [withSetting_setting, if_neg h]

/-- A write of the value held changes nothing. -/
theorem withSetting_self {p : Part} {n : Fin 40} {v : Int} (h : v = p.setting n) : p.withSetting n v = p := by
  have kept : p.store.working.settings.set n.val v n.isLt = p.store.working.settings := by
    rw [h]
    exact Vector.set_getElem_self ..
  unfold Part.withSetting
  rw [kept]

theorem withSetting_species (p : Part) (n : Fin 40) (v : Int) (f : Species → Int) :
    (p.withSetting n v).speciesValue f = p.speciesValue f := rfl

theorem withSpecies_species (p : Part) (c k : Fin 32) (x : Species) :
    (p.withSpecies c x).species k = if c = k then x else p.species k := by
  unfold Part.species Part.withSpecies
  by_cases h : c = k
  · subst h
    simp
  · have hv : c.val ≠ k.val := fun e => h (Fin.ext e)
    simp [h, hv]

/-- The value in use is that of the ACTIVE record's species (09 R174). -/
theorem speciesValue_eq (p : Part) (f : Species → Int) :
    p.speciesValue f = (p.activeRecord.map fun r => f (p.species r.species)).getD 0 := by
  unfold Part.speciesValue Part.inUse Part.species
  cases p.activeRecord <;> rfl

/-- A value in which the new record agrees with the old one stands. -/
theorem withSpecies_value {p : Part} {c : Fin 32} {x : Species} {f : Species → Int} (h : f x = f (p.species c)) :
    (p.withSpecies c x).speciesValue f = p.speciesValue f := by
  have each : ∀ k, f ((p.withSpecies c x).species k) = f (p.species k) := fun k => by
    rw [withSpecies_species]
    split
    next e => rw [h, e]
    · rfl
  rw [speciesValue_eq, speciesValue_eq]
  simp only [each]
  rfl

/-- A species that no record names is not in use (09 R178). -/
theorem withSpecies_value_unnamed {p : Part} {c : Fin 32} (x : Species) (h : p.named c = false) (f : Species → Int) :
    (p.withSpecies c x).speciesValue f = p.speciesValue f := by
  have active : (p.withSpecies c x).activeRecord = p.activeRecord := rfl
  rw [speciesValue_eq, speciesValue_eq, active]
  rcases hr : p.activeRecord with _ | r
  · rfl
  · have other : c ≠ r.species := fun e => by
      have found : ∃ i, p.recordAt i = some r := by
        unfold Part.activeRecord at hr
        split at hr
        next i _ => exact ⟨i, hr⟩
        · cases hr
      obtain ⟨i, hi⟩ := found
      rw [e, named_of_recordAt hi] at h
      cases h
    rw [Option.map_some, Option.map_some, withSpecies_species, if_neg other]

/-! ### What the writes leave as it was -/

/-- Where source, pitches and corrections stand, a change marks and discards nothing. -/
theorem rescale_of_values {p q : Part} (wheelPitch : q.setting 1 = p.setting 1) (rollerPitch : q.setting 2 = p.setting 2)
    (select : q.setting 3 = p.setting 3) (wheelCorr : q.speciesValue (·.wheelCorr) = p.speciesValue (·.wheelCorr))
    (rollerCorr : q.speciesValue (·.rollerCorr) = p.speciesValue (·.rollerCorr)) (valid : q.wheelValid = p.wheelValid) :
    rescale p q = q := by
  refine rescale_idle ?_ ?_
  · unfold Part.inForce Part.source Part.wheelPitch Part.rollerPitch Part.wheelCorr Part.rollerCorr
    rw [wheelPitch, rollerPitch, select, wheelCorr, rollerCorr, valid]
  · unfold Part.scales Part.wheelPitch Part.rollerPitch Part.wheelCorr Part.rollerCorr
    rw [wheelPitch, rollerPitch, wheelCorr, rollerCorr]

theorem knifePressure_congr {p q : Part} (base : q.speciesValue (·.knifeBase) = p.speciesValue (·.knifeBase))
    (slope : q.speciesValue (·.knifeSlope) = p.speciesValue (·.knifeSlope))
    (most : q.speciesValue (·.knifeMax) = p.speciesValue (·.knifeMax)) (boost : q.setting 14 = p.setting 14)
    (limit : q.setting 34 = p.setting 34) (samples : q.diameter.samples = p.diameter.samples) (held : q.knife = p.knife)
    (k : KnifeState) : q.knifePressure k = p.knifePressure k := by
  unfold Part.knifePressure Part.computedPressure Part.clampPressure Part.knifeLimit Part.currentDiameter
  rw [base, slope, most, boost, limit, samples, held]

theorem setting_of_store {p q : Part} (h : q.store = p.store) (n : Fin 40) : q.setting n = p.setting n := by
  unfold Part.setting
  rw [h]

/-- Under the same pins, lines and settings of the diameter unit the stem is gone or not as before. -/
theorem stemGone_of_settings {p q : Part} (active : q.hasActive = p.hasActive) (pins : q.pins = p.pins)
    (lines : q.diameter.lines = p.diameter.lines) (settings : ∀ m : Fin 40, 18 ≤ m.val → m.val ≤ 33 → q.setting m = p.setting m) :
    q.stemGone = p.stemGone := by
  have reading : ∀ l, q.reading l = p.reading l := fun l => by
    unfold Part.reading
    rw [pins]
  have line : ∀ l, q.line l = p.line l := fun l => by
    unfold Part.line
    rw [lines]
  have own : ∀ l, q.lineEnabled l = p.lineEnabled l ∧ q.lineLow l = p.lineLow l ∧ q.lineHigh l = p.lineHigh l
      ∧ q.lineGain l = p.lineGain l ∧ q.lineOffset l = p.lineOffset l := fun l => by
    unfold Part.lineEnabled Part.lineLow Part.lineHigh Part.lineGain Part.lineOffset
    cases l <;> simp (disch := decide) only [settings, and_self]
  refine stemGone_congr active (fun l => ?_) (fun l => ?_) (settings 33 (by decide) (by decide))
  · obtain ⟨enabled, low, high, -, -⟩ := own l
    refine usable_congr enabled (by rw [line]) ?_
    unfold Part.outOfWindow
    rw [reading, low, high]
  · obtain ⟨-, -, -, gain, offset⟩ := own l
    unfold Part.estimate
    rw [reading, gain, offset]

theorem feedDemand_congr {p q : Part} (state : q.feed.state = p.feed.state)
    (slow : q.speciesValue (·.feedApproach) = p.speciesValue (·.feedApproach))
    (fast : q.speciesValue (·.feedMax) = p.speciesValue (·.feedMax)) : q.feedDemand = p.feedDemand := by
  unfold Part.feedDemand
  rw [state, slow, fast]

end Sys2Proof.Machine
end

section
namespace Sys2Proof.Machine

/-! ### A request on the working copy -/

/-- From `p` to `x` a request on the working copy has done no more than this: the store, the marks of log and carry, the slip
window, the supervision of the lines, a takeover's source and the stick image, and in the link the queue, the send list, and the
waiting valve command frame with its timer. -/
structure Writes (p x : Part) : Prop where
  eqn : x = { p with
    store := x.store
    length := { p.length with history := x.length.history, carry := x.length.carry, slip := x.length.slip }
    diameter := { p.diameter with lines := x.diameter.lines }
    monitor := { p.monitor with takeover := x.monitor.takeover, stick := x.monitor.stick }
    link := { p.link with
      requests := x.link.requests, sendList := x.link.sendList, valve := x.link.valve, refresh := x.link.refresh } }
  inForce : x.monitor.takeover.inForce = p.monitor.takeover.inForce

theorem Writes.trans {p q t : Part} (h : Writes p q) (k : Writes q t) : Writes p t := by
  refine ⟨?_, k.inForce.trans h.inForce⟩
  have e := k.eqn
  rw [h.eqn] at e
  exact e

theorem Writes.of_handed (p : Part) (rest : List (List Byte)) : Writes p (p.handed rest) := ⟨rfl, rfl⟩

theorem Writes.of_answered (old : List SendItem) (a : Answer) (p : Part) : Writes p (answered old a p) := ⟨rfl, rfl⟩

theorem Writes.of_setting (p : Part) (n : Fin 40) (v : Int) : Writes p (p.withSetting n v) := ⟨rfl, rfl⟩

theorem Writes.of_species (p : Part) (c : Fin 32) (x : Species) : Writes p (p.withSpecies c x) := ⟨rfl, rfl⟩

theorem Writes.of_line (p : Part) (l : Line) (u : LineUnit) : Writes p (p.setLine l u) := ⟨rfl, rfl⟩

theorem Writes.of_frame (p : Part) : Writes p (buildFrame p) := ⟨rfl, rfl⟩

theorem Writes.of_rescale (b p : Part) : Writes p (rescale b p) := by
  rw [rescale_eqn]
  exact ⟨rfl, rfl⟩

theorem Writes.active {p x : Part} (w : Writes p x) : x.hasActive = p.hasActive := by
  have table : x.table = p.table := by rw [w.eqn]
  unfold Part.hasActive
  rw [activeSlot_of_table table]

/-- The part `p` with all that a request on the working copy may change, the link aside, as `q` has it. -/
def Part.wroteAs (p q : Part) : Part :=
  { p with
    store := q.store
    length := { p.length with history := q.length.history, carry := q.length.carry, slip := q.length.slip }
    diameter := { p.diameter with lines := q.diameter.lines, dropTimer := q.diameter.dropTimer }
    monitor := { p.monitor with takeover := q.monitor.takeover, stick := q.monitor.stick }
    knife := { p.knife with pressure := q.knife.pressure } }

/-! ### The end of such a request -/

section Ends
variable {p x : Part} (w : Writes p x) (quiet : Quiet p)
include w quiet

/-- No reset and no hold comes, so the plain stages are all that is left. -/
theorem Writes.concluded : conclude p x = concludeRest p x := by
  have pend : x.boot.resetPending = none ∨ x.link.busOff = false := by
    rw [w.eqn]
    exact quiet.pending
  have holds : x.holdPasses = p.holdPasses :=
    holdPasses_congr (by rw [w.eqn]) (by rw [w.eqn]) (by rw [w.eqn]) (by rw [w.eqn])
  rw [conclude_eq, resetInBusOff_idle pend, holdTest_idle (holds.trans quiet.holds)]

theorem Writes.store_end : (conclude p x).store = x.store := by rw [w.concluded quiet, concludeRest_eq]

theorem Writes.lines_end : (conclude p x).diameter.lines = x.diameter.lines := by rw [w.concluded quiet, concludeRest_eq]

theorem Writes.monitor_end : (conclude p x).monitor = x.monitor := by rw [w.concluded quiet, concludeRest_eq]

theorem Writes.length_end (length : x.length = p.length) : (conclude p x).length = p.length := by
  have runs : x.slipRuns = p.slipRuns := by
    have feed : x.feed = p.feed := by rw [w.eqn]
    unfold Part.slipRuns Part.wheelValid
    rw [feed, length, w.active]
  rw [w.concluded quiet, concludeRest_eq]
  dsimp only
  rw [runs, length, ← quiet.slip]

theorem Writes.dropTimer_end (gone : x.stemGone = p.stemGone) :
    (conclude p x).diameter.dropTimer = p.diameter.dropTimer := by
  have timer : x.diameter.dropTimer = p.diameter.dropTimer := by rw [w.eqn]
  rw [w.concluded quiet, concludeRest_eq]
  dsimp only
  rw [gone, timer, ← quiet.drop]

theorem Writes.knifeState : x.knifeState = p.knife.state := by
  have held : p.knife.state = p.knifeState := congrArg Knife.state quiet.knife
  rw [held]
  exact knifeState_congr w.inForce (by rw [w.eqn]) (w.active) (by rw [w.eqn]) (by rw [w.eqn])

theorem Writes.pressure_end (pressure : ∀ k, x.knifePressure k = p.knifePressure k) :
    (conclude p x).knife.pressure = p.knife.pressure := by
  have state : p.knife.state = p.knifeState := congrArg Knife.state quiet.knife
  have held : p.knife.pressure = p.knifePressure p.knifeState := congrArg Knife.pressure quiet.knife
  rw [w.concluded quiet, concludeRest_eq]
  change x.knifePressure x.knifeState = _
  rw [w.knifeState quiet, pressure, held, ← state]

/-- Under the same demands no frame is built, and the image stands. -/
theorem Writes.link_end (pressure : ∀ k, x.knifePressure k = p.knifePressure k) (demand : x.feedDemand = p.feedDemand) :
    (conclude p x).link.image = p.link.image ∧ (conclude p x).link.valve = x.link.valve
      ∧ (conclude p x).link.refresh = if p.sendsValve then x.link.refresh else none := by
  have state : p.knife.state = p.knifeState := congrArg Knife.state quiet.knife
  have sends : x.sendsValve = p.sendsValve := by
    rw [w.eqn]
    rfl
  have knife : x.nextKnife = p.nextKnife :=
    nextKnife_congr (by rw [w.eqn]) ((w.knifeState quiet).trans state) pressure
  have image : x.nextImage = p.link.image :=
    (nextImage_congr demand knife (by rw [w.eqn])).trans quiet.image.symm
  rw [w.concluded quiet, concludeRest_eq]
  dsimp only
  rw [image, sends]
  cases p.sendsValve <;> simp

/-- The most that a request on the working copy of a part in READY leaves changed. -/
theorem Writes.ends (ready : p.boot.ready = true) : conclude p x = { p.wroteAs (conclude p x) with
    link := { p.link with
      requests := x.link.requests
      sendList := if p.link.busOff then [] else x.link.sendList.take 16
      image := (conclude p x).link.image, valve := (conclude p x).link.valve, refresh := (conclude p x).link.refresh } } := by
  have boot : x.boot.ready = true := by
    rw [w.eqn]
    exact ready
  have ended : conclude p x = { x with
      length := { x.length with slip := (conclude p x).length.slip }
      diameter := { x.diameter with dropTimer := (conclude p x).diameter.dropTimer }
      knife := { x.knife with state := x.knifeState, pressure := (conclude p x).knife.pressure }
      link := { x.link with
        sendList := if x.link.busOff then [] else x.link.sendList.take 16
        image := (conclude p x).link.image, valve := (conclude p x).link.valve, refresh := (conclude p x).link.refresh } } := by
    rw [w.concluded quiet, concludeRest_eq, boot]
    rfl
  rw [w.knifeState quiet] at ended
  have store := w.store_end quiet
  have lines := w.lines_end quiet
  have monitor := w.monitor_end quiet
  have history : (conclude p x).length.history = x.length.history := by rw [ended]
  have carry : (conclude p x).length.carry = x.length.carry := by rw [ended]
  unfold Part.wroteAs
  rw [store, lines, monitor, history, carry]
  generalize conclude p x = q at ended ⊢
  rw [w.eqn] at ended
  exact ended

end Ends

/-- Once answered, no more than `wroteAs` and the valve command frames has changed. -/
theorem Writes.answered_ends {p y : Part} (w : Writes p y) (quiet : Quiet p) (ready : p.boot.ready = true)
    (short : p.link.sendList.length < 16) {rest : List (List Byte)} (requests : y.link.requests = rest)
    (empty : y.link.sendList = []) (a : Answer) :
    ValveOnly ((p.wroteAs (conclude p (answered p.link.sendList a y))).withAnswer a rest)
      (conclude p (answered p.link.sendList a y)) := by
  have ends := (w.trans (.of_answered p.link.sendList a y)).ends quiet ready
  have list : (answered p.link.sendList a y).link.sendList.take 16 = p.link.sendList ++ [.answer a] := by
    unfold answered
    rw [empty]
    exact List.take_of_length_le (by simp; omega)
  rw [list, answered_link_requests, requests] at ends
  exact ends

theorem ready_of_granted {p : Part} {code tag : Byte} {args : List Byte} {rest : List (List Byte)}
    (h : p.granted code tag args rest) (late : takenUnready.contains code = false) : p.boot.ready = true := by
  obtain ⟨⟨-, readiness⟩, -⟩ := h
  exact readiness.resolve_right (by rw [late]; exact Bool.false_ne_true)

/-- A granted request on the working copy: its row runs, it is answered, and no more than `wroteAs` and the valve command frames has
changed. -/
theorem Writes.granted {s : State} {code tag : Byte} {args : List Byte} {rest : List (List Byte)} {results : List Byte} {y : Part}
    (w : Writes s.part y) (hs : Settled s.part) (h : s.part.granted code tag args rest) (hc : code ∈ requestCodes)
    (hne : code ≠ 0x30) (late : takenUnready.contains code = false)
    (hh : handlerOf code args (s.part.handed rest) = accept results y) (requests : y.link.requests = rest)
    (empty : y.link.sendList = []) :
    let q := conclude s.part (answered s.part.link.sendList (okAnswer code tag results) y)
    Runs (requestRow code) s q ∧ s.part.replies q (okAnswer code tag results) rest
      ∧ ValveOnly ((s.part.wroteAs q).withAnswer (okAnswer code tag results) rest) q := by
  intro q
  obtain ⟨run, replies⟩ := granted_accepts h hc hne hh
  exact ⟨run, replies,
    w.answered_ends (hs.quiet h.1.1.1) (ready_of_granted h late) h.1.1.2.2.1 requests empty (okAnswer code tag results)⟩

end Sys2Proof.Machine
end
section
namespace Sys2Proof.Machine

/-! ### WRITE SPECIES, CLEAR SPECIES -/

theorem speciesCode_eq {c : Fin 32} {n : Nat} (h : c.val = n) : speciesCode n = some c := by
  subst h
  simp [speciesCode]

theorem writeSpecies_handled {p : Part} {args : List Byte} {rest : List (List Byte)} {c : Fin 32} (hc : c.val = readU8 args 0)
    (h : p.refusal 0x21 args = none) : handlerOf 0x21 args (p.handed rest) =
      accept (u8 c.val) (rescale (p.handed rest) ((p.handed rest).withSpecies c (readSpeciesImage args 1))) := by
  have table : firstFailing [(decide (31 < readU8 args 0), AnswerCode.badArgument),
      (!(readSpeciesImage args 1).inRange, .badArgument), (p.storing, .busy)] = none := h
  obtain ⟨-, range, idle, -⟩ := by simpa only [firstFailing_none] using table
  change doWriteSpecies args (p.handed rest) = _
  unfold doWriteSpecies
  rw [speciesCode_eq hc]
  dsimp only
  rw [if_neg (by simpa using range), if_neg (by simpa [Part.storing, Part.handed] using idle)]
  rfl

theorem clearSpecies_handled {p : Part} {args : List Byte} {rest : List (List Byte)} {c : Fin 32} (hc : c.val = readU8 args 0)
    (h : p.refusal 0x22 args = none) : p.named c = false ∧ handlerOf 0x22 args (p.handed rest) =
      accept [] (rescale (p.handed rest) ((p.handed rest).withSpecies c (Species.builtIn false))) := by
  have table : firstFailing [(decide (31 < readU8 args 0), AnswerCode.badArgument), (p.storing, .busy),
      ((speciesCode (readU8 args 0)).any p.named, .inUse)] = none := h
  obtain ⟨-, idle, named, -⟩ := by simpa only [firstFailing_none] using table
  have unnamed : p.named c = false := by simpa [speciesCode_eq hc] using named
  refine ⟨unnamed, ?_⟩
  change doClearSpecies args (p.handed rest) = _
  unfold doClearSpecies
  rw [speciesCode_eq hc]
  dsimp only
  rw [if_neg (by simpa [Part.storing, Part.handed] using idle),
    if_neg (by rw [show (p.handed rest).named c = p.named c from rfl, unnamed]; exact Bool.false_ne_true)]
  rfl

theorem Writes.of_speciesWritten (p : Part) (rest : List (List Byte)) (c : Fin 32) (x : Species) :
    Writes p (rescale (p.handed rest) ((p.handed rest).withSpecies c x)) :=
  ((Writes.of_handed p rest).trans (.of_species _ c x)).trans (.of_rescale _ _)

@[simp] theorem rescale_store (b p : Part) : (rescale b p).store = p.store := rfl
@[simp] theorem rescale_monitor (b p : Part) : (rescale b p).monitor = p.monitor := rfl
@[simp] theorem rescale_diameter (b p : Part) : (rescale b p).diameter = p.diameter := rfl

section SpeciesWritten
variable {p : Part} (quiet : Quiet p) (rest : List (List Byte)) {c : Fin 32} {x : Species} (a : Answer)

/-- The part that a request on a species record hands to the end of its event. -/
def Part.speciesWritten (p : Part) (rest : List (List Byte)) (c : Fin 32) (x : Species) (a : Answer) : Part :=
  answered p.link.sendList a (rescale (p.handed rest) ((p.handed rest).withSpecies c x))

theorem speciesWritten_writes : Writes p (p.speciesWritten rest c x a) :=
  (Writes.of_speciesWritten p rest c x).trans (.of_answered p.link.sendList a _)

theorem speciesWritten_store : (p.speciesWritten rest c x a).store = (p.withSpecies c x).store := rfl

theorem speciesWritten_value (f : Species → Int) :
    (p.speciesWritten rest c x a).speciesValue f = (p.withSpecies c x).speciesValue f :=
  speciesValue_congr rfl (speciesWritten_store rest a) f

theorem speciesWritten_setting (n : Fin 40) : (p.speciesWritten rest c x a).setting n = p.setting n :=
  setting_of_store (p := p.withSpecies c x) (speciesWritten_store rest a) n

include quiet

/-- What a species record's new values leave at the end of the request: the drop timer reads none of them. -/
theorem speciesWritten_ends :
    let q := conclude p (p.speciesWritten rest c x a)
    q.store = (p.withSpecies c x).store ∧ q.monitor = p.monitor ∧ q.diameter.lines = p.diameter.lines
      ∧ q.diameter.dropTimer = p.diameter.dropTimer ∧ Rescaled p q := by
  have w : Writes p (p.speciesWritten rest c x a) := speciesWritten_writes rest a
  have gone : (p.speciesWritten rest c x a).stemGone = p.stemGone :=
    stemGone_of_settings w.active rfl rfl fun m _ _ => speciesWritten_setting rest a m
  have scaled : Rescaled p (conclude p (p.speciesWritten rest c x a)) :=
    conclude_rescaled (x := p.withSpecies c x) p quiet.pending rfl rfl rfl rfl rfl rfl
  exact ⟨w.store_end quiet, w.monitor_end quiet, w.lines_end quiet, w.dropTimer_end quiet gone, scaled⟩

/-- A record whose corrections in use stand leaves the length unit. -/
theorem speciesWritten_length (wheel : (p.withSpecies c x).speciesValue (·.wheelCorr) = p.speciesValue (·.wheelCorr))
    (roller : (p.withSpecies c x).speciesValue (·.rollerCorr) = p.speciesValue (·.rollerCorr)) :
    (conclude p (p.speciesWritten rest c x a)).length = p.length := by
  have w : Writes p (p.speciesWritten rest c x a) := speciesWritten_writes rest a
  refine w.length_end quiet ?_
  rw [Part.speciesWritten, answered_length,
    rescale_of_values (p := p.handed rest) (q := (p.handed rest).withSpecies c x) rfl rfl rfl wheel roller rfl]
  rfl

/-- A record whose values of clamping and feeding in use stand leaves the knives, the image and the valve command frames. -/
theorem speciesWritten_link (base : (p.withSpecies c x).speciesValue (·.knifeBase) = p.speciesValue (·.knifeBase))
    (slope : (p.withSpecies c x).speciesValue (·.knifeSlope) = p.speciesValue (·.knifeSlope))
    (most : (p.withSpecies c x).speciesValue (·.knifeMax) = p.speciesValue (·.knifeMax))
    (slow : (p.withSpecies c x).speciesValue (·.feedApproach) = p.speciesValue (·.feedApproach))
    (fast : (p.withSpecies c x).speciesValue (·.feedMax) = p.speciesValue (·.feedMax)) :
    let q := conclude p (p.speciesWritten rest c x a)
    q.knife.pressure = p.knife.pressure ∧ q.link.image = p.link.image ∧ q.link.valve = p.link.valve
      ∧ q.link.refresh = p.link.refresh := by
  have w : Writes p (p.speciesWritten rest c x a) := speciesWritten_writes rest a
  have value : ∀ f, (p.speciesWritten rest c x a).speciesValue f = (p.withSpecies c x).speciesValue f := speciesWritten_value rest a
  have setting : ∀ n, (p.speciesWritten rest c x a).setting n = p.setting n := speciesWritten_setting rest a
  have pressure : ∀ k, (p.speciesWritten rest c x a).knifePressure k = p.knifePressure k :=
    knifePressure_congr ((value _).trans base) ((value _).trans slope) ((value _).trans most) (setting _) (setting _) rfl rfl
  obtain ⟨image, valve, refresh⟩ :=
    w.link_end quiet pressure (feedDemand_congr rfl ((value _).trans slow) ((value _).trans fast))
  refine ⟨w.pressure_end quiet pressure, image, valve, refresh.trans ?_⟩
  split
  · rfl
  next off => exact (quiet.refresh (by simpa using off)).symm

end SpeciesWritten

theorem speciesWritten_granted {s : State} {code tag : Byte} {args : List Byte} {rest : List (List Byte)} {results : List Byte}
    {c : Fin 32} {x : Species} (hs : Settled s.part) (h : s.part.granted code tag args rest) (hc : code ∈ requestCodes)
    (hne : code ≠ 0x30) (late : takenUnready.contains code = false) (hh : handlerOf code args (s.part.handed rest) =
      accept results (rescale (s.part.handed rest) ((s.part.handed rest).withSpecies c x))) :
    let q := conclude s.part (s.part.speciesWritten rest c x (okAnswer code tag results))
    Runs (requestRow code) s q ∧ ValveOnly ((s.part.wroteAs q).withAnswer (okAnswer code tag results) rest) q := by
  obtain ⟨run, -, ends⟩ := (Writes.of_speciesWritten s.part rest c x).granted hs h hc hne late hh rfl rfl
  exact ⟨run, ends⟩

/-- A record in no use: nothing but the record changes. -/
theorem speciesWritten_still {p q : Part} {a : Answer} {rest : List (List Byte)} (ends : ValveOnly ((p.wroteAs q).withAnswer a rest) q)
    (monitor : q.monitor = p.monitor) (lines : q.diameter.lines = p.diameter.lines)
    (timer : q.diameter.dropTimer = p.diameter.dropTimer) (pressure : q.knife.pressure = p.knife.pressure)
    (image : q.link.image = p.link.image) (valve : q.link.valve = p.link.valve) (refresh : q.link.refresh = p.link.refresh) :
    q = Part.withAnswer { p with
      store := q.store
      length := { p.length with history := q.length.history, carry := q.length.carry, slip := q.length.slip } } a rest := by
  unfold ValveOnly Part.wroteAs at ends
  rw [monitor, lines, timer, pressure, image, valve, refresh] at ends
  exact ends

/-- Settles O29: both handlers write the record and draw the change of scale; a record that is in use reaches marks, window, pressure
and image, one that is not in use reaches nothing. -/
theorem speciesRecordsAreWrittenAndCleared : Obligations.SpeciesRecordsAreWrittenAndCleared := by
  intro s tag args rest c hs hc
  refine ⟨fun h => ?_, fun h => ?_⟩
  · have quiet := hs.quiet h.1.1.1
    obtain ⟨run, ends⟩ := speciesWritten_granted hs h (by decide) (by decide) (by decide) (writeSpecies_handled hc h.2.2)
    obtain ⟨store, monitor, lines, timer, scaled⟩ := speciesWritten_ends quiet rest (c := c) (x := readSpeciesImage args 1)
      (okAnswer 0x21 tag (u8 c.val))
    refine ⟨_, run, store, ?_, scaled, fun same => ?_⟩
    · unfold Part.wroteAs at ends
      rw [monitor, lines, timer] at ends
      exact ends
    · have kept : ∀ f : Species → Int, f (readSpeciesImage args 1) = f { s.part.species c with valid := true } :=
        fun f => congrArg f same
      exact speciesWritten_length quiet rest _ (withSpecies_value (kept _)) (withSpecies_value (kept _))
  · have quiet := hs.quiet h.1.1.1
    obtain ⟨unnamed, handled⟩ := clearSpecies_handled (rest := rest) hc h.2.2
    have value := withSpecies_value_unnamed (Species.builtIn false) unnamed
    obtain ⟨run, ends⟩ := speciesWritten_granted hs h (by decide) (by decide) (by decide) handled
    obtain ⟨store, monitor, lines, timer, -⟩ := speciesWritten_ends quiet rest (c := c) (x := Species.builtIn false)
      (okAnswer 0x22 tag [])
    obtain ⟨pressure, image, valve, refresh⟩ := speciesWritten_link quiet rest (okAnswer 0x22 tag [])
      (value _) (value _) (value _) (value _) (value _)
    have still := speciesWritten_still ends monitor lines timer pressure image valve refresh
    have length := speciesWritten_length quiet rest (okAnswer 0x22 tag []) (value _) (value _)
    rw [length, store] at still
    rw [still] at run
    exact run

end Sys2Proof.Machine
end
section
namespace Sys2Proof.Machine

/-! ### CALIBRATE -/

/-- A rounded quotient is within half a unit of the exact one, halves away from zero (09 R180). -/
theorem roundDiv_spec {a b : Int} (hb : 0 < b) :
    (0 ≤ a → 2 * roundDiv a b * b ≤ 2 * a + b ∧ 2 * a + b < 2 * (roundDiv a b + 1) * b)
      ∧ (a < 0 → 2 * -roundDiv a b * b ≤ -2 * a + b ∧ -2 * a + b < 2 * (-roundDiv a b + 1) * b) := by
  have floor : ∀ x : Int, 2 * (x / (2 * b)) * b ≤ x ∧ x < 2 * (x / (2 * b) + 1) * b := fun x => by
    have low := Int.mul_ediv_self_le (x := x) (k := 2 * b) (by omega)
    have high := Int.lt_mul_ediv_self_add (x := x) (k := 2 * b) (by omega)
    constructor <;> nlinarith
  unfold roundDiv
  refine ⟨fun h => ?_, fun h => ?_⟩
  · rw [if_pos h]
    exact floor _
  · rw [if_neg (by omega), neg_neg]
    exact floor _

/-- What a calibration that is taken derives (09 R180, R181): a part not given stays. -/
structure Calibration (s : Species) (x : Results) (length : Option Int) (diameter : Option Nat) (new : Species) : Prop where
  eqn : new = { s with wheelCorr := new.wheelCorr, diamOffset := new.diamOffset }
  lengthKept : length = none → new.wheelCorr = s.wheelCorr
  diameterKept : diameter = none → new.diamOffset = s.diamOffset
  corr : ∀ l, length = some l → ∃ w, x.rawWheel = some w ∧ 100 ≤ w ∧ new.wheelCorr = calibratedCorr l w
  offset : ∀ d : Nat, diameter = some d → ∃ cut : Nat, x.cutDia = some cut
    ∧ new.diamOffset = steppedOffset s.diamOffset (diamStep s d cut)

theorem calibrated_spec {s new : Species} {x : Results} {length : Option Int} {diameter : Option Nat}
    (h : calibrated s x length diameter = .inr new) : Calibration s x length diameter new := by
  unfold calibrated at h
  dsimp only at h
  rw [ite_eq_iff, or_iff_right (by simp)] at h
  obtain ⟨hasLength, h⟩ := h
  rw [ite_eq_iff, or_iff_right (by simp)] at h
  obtain ⟨hasDiameter, h⟩ := h
  rw [ite_eq_iff, or_iff_right (by simp)] at h
  obtain ⟨-, h⟩ := h
  rw [ite_eq_iff, or_iff_right (by simp)] at h
  obtain ⟨-, h⟩ := h
  obtain rfl := Sum.inr.inj h
  refine ⟨rfl, fun none => by simp [none], fun none => by simp [none], fun l given => ?_, fun d given => ?_⟩
  · subst given
    rcases hw : x.rawWheel with _ | w
    · simp [hw] at hasLength
    · exact ⟨w, rfl, by simpa [hw] using hasLength, rfl⟩
  · subst given
    rcases hcut : x.cutDia with _ | cut
    · simp [hcut] at hasDiameter
    · exact ⟨cut, rfl, rfl⟩

/-- A refused calibration answers other than OK. -/
theorem calibrated_refuses {s : Species} {x : Results} {length : Option Int} {diameter : Option Nat} {code : AnswerCode}
    (h : calibrated s x length diameter = .inl code) : code ≠ .ok := by
  unfold calibrated at h
  dsimp only at h
  repeat' split at h
  all_goals cases h
  all_goals simp

theorem calibrate_handled {p : Part} {args : List Byte} {rest : List (List Byte)} {i : Fin 8} {r : Record} {e : Entry} {x : Results}
    (hi : p.lookup (readStem args) = some i) (hr : p.recordAt i = some r) (he : r.entries[readU8 args 2]? = some e)
    (hx : e.results = some x) (h : p.refusal 0x23 args = none) :
    ∃ new, Calibration (p.species r.species) x (readOptI32 args 3) (readOptU16 args 7) new
      ∧ handlerOf 0x23 args (p.handed rest) = accept (calibrateResults (p.species r.species) new)
        (rescale (p.handed rest) ((p.handed rest).withSpecies r.species new)) := by
  have ok := handlerOf_answers (code := 0x23) (by decide) args (p.handed rest)
  rw [refusal_handed, h] at ok
  have ok : (doCalibrate args (p.handed rest)).answer = .ok := ok
  have tests : firstFailing (p.calibrateTests args r e) = none := by
    have table := (stemTests_of_lookup hi hr _).symm.trans h
    rw [he] at table
    exact table
  obtain ⟨truths, idle, done, -⟩ := by simpa only [Part.calibrateTests, firstFailing_none] using tests
  have done : e.state = .done := by simpa [hx] using done
  have eq : doCalibrate args (p.handed rest) = calibrateEntry r x (readOptI32 args 3) (readOptU16 args 7) (p.handed rest) := by
    refine (withStem_of_lookup (p := p.handed rest) hi hr _).trans ?_
    rw [he]
    dsimp only
    rw [if_neg (by simpa using truths), if_neg (by simpa [Part.storing, Part.handed] using idle), done, hx]
  rw [eq] at ok
  change ∃ new, _ ∧ doCalibrate args (p.handed rest) = _
  rw [eq]
  unfold calibrateEntry at ok ⊢
  rw [show (p.handed rest).species r.species = p.species r.species from rfl] at ok ⊢
  rcases hcal : calibrated (p.species r.species) x (readOptI32 args 3) (readOptU16 args 7) with code | new
  · rw [hcal] at ok
    exact absurd ok (calibrated_refuses hcal)
  · exact ⟨new, calibrated_spec hcal, rfl⟩

/-- Settles O30: the corrections are `calibrated`'s (`Calibration`), and a record that differs in them alone reaches the marks and the
slip window, not the knives nor the image. -/
theorem calibrateDerivesCorrections : Obligations.CalibrateDerivesCorrections := by
  intro s tag args rest i r e x hs h hi hr he hx old
  have quiet := hs.quiet h.1.1.1
  obtain ⟨new, cal, handled⟩ := calibrate_handled (rest := rest) hi hr he hx h.2.2
  obtain ⟨run, ends⟩ := speciesWritten_granted hs h (by decide) (by decide) (by decide) handled
  obtain ⟨store, monitor, lines, timer, scaled⟩ := speciesWritten_ends quiet rest (c := r.species) (x := new)
    (okAnswer 0x23 tag (calibrateResults old new))
  obtain ⟨pressure, image, valve, refresh⟩ := speciesWritten_link quiet rest (c := r.species) (x := new)
    (okAnswer 0x23 tag (calibrateResults old new)) (withSpecies_value (by rw [cal.eqn])) (withSpecies_value (by rw [cal.eqn]))
    (withSpecies_value (by rw [cal.eqn])) (withSpecies_value (by rw [cal.eqn])) (withSpecies_value (by rw [cal.eqn]))
  refine ⟨_, new, run, store, cal.eqn, cal.lengthKept, cal.diameterKept, fun l given => ?_, cal.offset, scaled,
    speciesWritten_still ends monitor lines timer pressure image valve refresh⟩
  obtain ⟨w, raw, least, corr⟩ := cal.corr l given
  obtain ⟨above, below⟩ := roundDiv_spec (a := (l - w) * 1000000) (b := w) (by omega)
  refine ⟨w, raw, least, fun longer => ?_, fun shorter => ?_⟩
  · rw [corr]
    exact above (by omega)
  · rw [corr, show 2 * ((w - l) * 1000000) = -2 * ((l - w) * 1000000) by ring]
    exact below (by omega)

end Sys2Proof.Machine
end
section
namespace Sys2Proof.Machine

/-! ### WRITE SETTING in its cases -/

theorem settingTaken_same {n : Fin 40} {v : Int} {p : Part} (h : v = p.setting n) (hn : n ≠ 35) : settingTaken n v p = p := by
  rw [settingTaken, if_neg hn, writeSetting, if_pos h]

theorem settingTaken_changed {n : Fin 40} {v : Int} {p : Part} (h : v ≠ p.setting n) (hn : n ≠ 35) :
    settingTaken n v p = settingActs n (rescale p (p.withSetting n v)) := by
  rw [settingTaken, if_neg hn, writeSetting, if_neg h, setSetting_eq]

theorem withSetting_own (p : Part) (n : Fin 40) (v : Int) : (p.withSetting n v).setting n = v := by
  rw [withSetting_setting, if_pos rfl]

/-- Pitches and LENGTH_SELECT aside, a setting is no matter of scale. -/
theorem rescale_withSetting {n : Fin 40} (p : Part) (v : Int) (hn : 3 < n.val) : rescale p (p.withSetting n v) = p.withSetting n v := by
  have other : ∀ m : Fin 40, m.val ≤ 3 → (p.withSetting n v).setting m = p.setting m := fun m hm =>
    withSetting_ne p (fun e => by rw [e] at hn; omega) v
  exact rescale_of_values (p := p) (q := p.withSetting n v) (other 1 (by decide)) (other 2 (by decide)) (other 3 (by decide))
    rfl rfl rfl

/-- The settings of a write of which acts at once on something beside the log. -/
def actingSettings : List (Fin 40) := [15, 16, 18, 19, 20, 21, 22, 23, 24, 25, 26, 35, 38, 39]

theorem settingActs_plain {n : Fin 40} (h : n ∉ actingSettings) (p : Part) : settingActs n p = p := by
  simp only [actingSettings, List.mem_cons, not_or] at h
  simp [settingActs, h]

/-- A write of a setting that acts on nothing else is a matter of the log and the slip window. -/
theorem settingTaken_plain {n : Fin 40} (h : n ∉ actingSettings) (v : Int) (p : Part) :
    settingTaken n v p = rescale p (p.withSetting n v) := by
  have hn : n ≠ 35 := fun e => h (by rw [e]; decide)
  by_cases hv : v = p.setting n
  · rw [settingTaken_same hv hn, withSetting_self hv, rescale_idle rfl rfl]
  · rw [settingTaken_changed hv hn, settingActs_plain h]

theorem settingTaken_refresh (v : Int) (p : Part) : settingTaken 35 v p = refreshCompare (p.withSetting 35 v) := by
  rw [settingTaken, if_pos rfl, writeSetting]
  split
  next same => rw [withSetting_self same]
  · rw [setSetting_eq, rescale_withSetting p v (by decide)]
    rfl

theorem settingTaken_snoop {v : Int} {p : Part} (h : v ≠ p.setting 38) :
    settingTaken 38 v p = snoopWritten (p.withSetting 38 v) := by
  rw [settingTaken_changed h (by decide), rescale_withSetting p v (by decide)]
  rfl

/-! ### A line's settings -/

/-- What the supervision of a line makes of a write of LINE_ENABLE (04 R79). -/
def Part.enableSeen (p : Part) (l : Line) : LineUnit :=
  if p.lineEnabled l then { state := .qualifying, run := some 0, lastOut := p.outOfWindow l }
  else { p.line l with state := .disabled, run := none }

theorem lineEnableWritten_eq (l : Line) (p : Part) : lineEnableWritten l p = p.setLine l (p.enableSeen l) := by
  unfold lineEnableWritten Part.enableSeen
  split <;> rfl

/-- What the supervision of a line makes of a write of LINE_LOW or LINE_HIGH (04 R79). -/
def Part.windowSeen (p : Part) (l : Line) : LineUnit :=
  if (p.line l).state = .disabled then p.line l else (p.line l).see true (p.outOfWindow l)

theorem lineWindowWritten_eq (l : Line) (p : Part) : lineWindowWritten l p = p.setLine l (p.windowSeen l) := by
  unfold lineWindowWritten Part.windowSeen
  split
  · exact (setLine_line p l).symm
  · rfl

/-- LINE_ENABLE of a line. -/
def enableOf (l : Line) : Fin 40 := match l with | .ka => 18 | .kb => 19 | .rl => 20

theorem enableOf_eq {n : Fin 40} {l : Line} (h : n.val = 18 + (lineIdx l).val) : n = enableOf l := by
  apply Fin.ext
  rw [h]
  cases l <;> rfl

theorem lineEnabled_eq (p : Part) (l : Line) : p.lineEnabled l = (p.setting (enableOf l) == 1) := by cases l <;> rfl

theorem lineEnabled_withSetting (p : Part) (l : Line) (v : Int) : (p.withSetting (enableOf l) v).lineEnabled l = (v == 1) := by
  rw [lineEnabled_eq, withSetting_own]

theorem settingTaken_enable {v : Int} {p : Part} {l : Line} (h : v ≠ p.setting (enableOf l)) :
    settingTaken (enableOf l) v p = (p.withSetting (enableOf l) v).setLine l ((p.withSetting (enableOf l) v).enableSeen l) := by
  rw [← lineEnableWritten_eq, settingTaken_changed h (by cases l <;> decide), rescale_withSetting p v (by cases l <;> decide)]
  cases l <;> rfl

theorem settingTaken_window {n : Fin 40} {v : Int} {p : Part} {l : Line}
    (hn : n.val = 21 + (lineIdx l).val ∨ n.val = 24 + (lineIdx l).val) (h : v ≠ p.setting n) :
    settingTaken n v p = (p.withSetting n v).setLine l ((p.withSetting n v).windowSeen l) := by
  have acts : ∀ t, settingActs n t = lineWindowWritten l t := fun t => by
    obtain ⟨n, lt⟩ := n
    rcases hn with rfl | rfl
    all_goals cases l <;> rfl
  rw [← lineWindowWritten_eq, settingTaken_changed h (fun e => by rw [e] at hn; cases l <;> revert hn <;> decide),
    rescale_withSetting p v (by omega), acts]

/-- A write of a line's setting touches that line's supervision at most. -/
theorem settingTaken_line {n : Fin 40} (hn : n ∈ ([18, 19, 20, 21, 22, 23, 24, 25, 26] : List (Fin 40))) (v : Int) (p : Part) :
    ∃ l u, settingTaken n v p = (p.withSetting n v).setLine l u := by
  have ne : n ≠ 35 := fun e => by
    rw [e] at hn
    revert hn
    decide
  by_cases hv : v = p.setting n
  · exact ⟨.ka, p.line .ka, by rw [settingTaken_same hv ne, withSetting_self hv, setLine_line]⟩
  have enable : ∀ l, n = enableOf l → ∃ l u, settingTaken n v p = (p.withSetting n v).setLine l u := fun l e => by
    subst e
    exact ⟨l, _, settingTaken_enable hv⟩
  have window : ∀ l, n.val = 21 + (lineIdx l).val ∨ n.val = 24 + (lineIdx l).val →
      ∃ l u, settingTaken n v p = (p.withSetting n v).setLine l u := fun l e => ⟨l, _, settingTaken_window e hv⟩
  simp only [List.mem_cons, List.not_mem_nil, or_false] at hn
  rcases hn with e | e | e | e | e | e | e | e | e
  · exact enable .ka e
  · exact enable .kb e
  · exact enable .rl e
  · exact window .ka (.inl (by rw [e]; rfl))
  · exact window .kb (.inl (by rw [e]; rfl))
  · exact window .rl (.inl (by rw [e]; rfl))
  · exact window .ka (.inr (by rw [e]; rfl))
  · exact window .kb (.inr (by rw [e]; rfl))
  · exact window .rl (.inr (by rw [e]; rfl))

/-! ### The timers' settings -/

/-- A write that the timer of the setting has not run, or in a state that its expiry leaves, is a change of the setting alone. -/
theorem settingTaken_idle {n : Fin 40} (hn : 3 < n.val) (ne : n ≠ 35) {v : Int} {p : Part}
    (idle : v ≠ p.setting n → settingActs n (p.withSetting n v) = p.withSetting n v) :
    settingTaken n v p = p.withSetting n v := by
  by_cases hv : v = p.setting n
  · rw [settingTaken_same hv ne, withSetting_self hv]
  · rw [settingTaken_changed hv ne, rescale_withSetting p v hn, idle hv]

theorem settingActs_cutLimit (v : Int) (p : Part) : settingActs 15 (p.withSetting 15 v) =
    if ran p.saw.cutTimer v then cutTimesOut (p.withSetting 15 v) else p.withSetting 15 v := by
  change (if ran p.saw.cutTimer ((p.withSetting 15 v).setting 15) then _ else _) = _
  rw [withSetting_own]

theorem settingActs_returnLimit (v : Int) (p : Part) : settingActs 16 (p.withSetting 16 v) =
    if ran p.saw.returnTimer v then returnTimesOut (p.withSetting 16 v) else p.withSetting 16 v := by
  change (if ran p.saw.returnTimer ((p.withSetting 16 v).setting 16) then _ else _) = _
  rw [withSetting_own]

theorem settingActs_release (v : Int) (p : Part) : settingActs 39 (p.withSetting 39 v) =
    if ran p.monitor.takeover.timer v then releaseExpires (p.withSetting 39 v) else p.withSetting 39 v := by
  change (if ran p.monitor.takeover.timer ((p.withSetting 39 v).setting 39) then _ else _) = _
  rw [withSetting_own]

theorem settingTaken_cutLimit_idle {v : Int} {p : Part}
    (h : v = p.setting 15 ∨ ran p.saw.cutTimer v = false ∨ p.saw.state ≠ .advancing) :
    settingTaken 15 v p = p.withSetting 15 v := by
  refine settingTaken_idle (by decide) (by decide) fun hv => ?_
  rw [settingActs_cutLimit]
  rcases h.resolve_left hv with off | still
  · rw [if_neg (by simp [off])]
  · rw [cutTimesOut, if_neg (show ¬(p.withSetting 15 v).saw.state = .advancing from still), ite_self]

theorem settingTaken_returnLimit_idle {v : Int} {p : Part}
    (h : v = p.setting 16 ∨ ran p.saw.returnTimer v = false ∨ p.saw.state ≠ .returning) :
    settingTaken 16 v p = p.withSetting 16 v := by
  refine settingTaken_idle (by decide) (by decide) fun hv => ?_
  rw [settingActs_returnLimit]
  rcases h.resolve_left hv with off | still
  · rw [if_neg (by simp [off])]
  · rw [returnTimesOut, if_neg (show ¬(p.withSetting 16 v).saw.state = .returning from still), ite_self]

theorem settingTaken_release_idle {v : Int} {p : Part} (h : v = p.setting 39 ∨ ran p.monitor.takeover.timer v = false) :
    settingTaken 39 v p = p.withSetting 39 v := by
  refine settingTaken_idle (by decide) (by decide) fun hv => ?_
  rw [settingActs_release, if_neg (by simp [h.resolve_left hv])]

theorem settingTaken_cutLimit {v : Int} {t : Nat} {p : Part} (hv : v ≠ p.setting 15) (timer : p.saw.cutTimer = some t)
    (le : v ≤ t) : settingTaken 15 v p = cutTimesOut (p.withSetting 15 v) := by
  rw [settingTaken_changed hv (by decide), rescale_withSetting p v (by decide), settingActs_cutLimit, timer]
  simp [ran, le]

theorem settingTaken_returnLimit {v : Int} {t : Nat} {p : Part} (hv : v ≠ p.setting 16) (timer : p.saw.returnTimer = some t)
    (le : v ≤ t) : settingTaken 16 v p = returnTimesOut (p.withSetting 16 v) := by
  rw [settingTaken_changed hv (by decide), rescale_withSetting p v (by decide), settingActs_returnLimit, timer]
  simp [ran, le]

theorem settingTaken_release {v : Int} {t : Nat} {p : Part} (hv : v ≠ p.setting 39) (snooped : p.monitor.takeover = .snooped t)
    (le : v ≤ t) : settingTaken 39 v p = takeoverEnds (p.withSetting 39 v) := by
  rw [settingTaken_changed hv (by decide), rescale_withSetting p v (by decide), settingActs_release, snooped]
  have held : (p.withSetting 39 v).monitor.takeover = .snooped t := snooped
  simp [ran, le, Takeover.timer, releaseExpires, held]

/-- Whatever a write does at once, the store is the one with the setting written. -/
theorem settingTaken_store (n : Fin 40) (v : Int) (p : Part) : (settingTaken n v p).store = (p.withSetting n v).store := by
  have written : (writeSetting n v p).store = (p.withSetting n v).store := by
    unfold writeSetting
    split
    next same => rw [withSetting_self same]
    · exact (settingActs_moves n _).2
  unfold settingTaken refreshCompare
  split
  · split <;> exact written
  · exact written

theorem settingTaken_serves (n : Fin 40) (v : Int) (p : Part) : Serves p (settingTaken n v p) := by
  have w := writeSetting_serves n v p
  unfold settingTaken refreshCompare
  split
  · split
    · exact ⟨w.requests, w.busOff, w.pending⟩
    · exact w
  · exact w

theorem writeSetting_handled {p : Part} {args : List Byte} {rest : List (List Byte)} {n : Fin 40} (hn : n.val = readU8 args 0)
    (h : p.refusal 0x29 args = none) : handlerOf 0x29 args (p.handed rest) =
      accept (u8 n.val ++ u16 (readI16 args 1)) (settingTaken n (readI16 args 1) (p.handed rest)) := by
  have number : settingNumber (readU8 args 0) = some n := by
    rw [← hn]
    simp [settingNumber]
  have ok : (doWriteSetting args (p.handed rest)).answer = .ok := by
    have answers := handlerOf_answers (code := 0x29) (by decide) args (p.handed rest)
    rw [refusal_handed, h] at answers
    exact answers
  change doWriteSetting args (p.handed rest) = _
  unfold doWriteSetting at ok ⊢
  rw [number] at ok ⊢
  dsimp only at ok ⊢
  split_ifs at ok ⊢
  · cases ok
  · cases ok
  · cases ok
  · rfl

end Sys2Proof.Machine
end
section
namespace Sys2Proof.Machine

/-! ### What a write of a setting leaves at the end of the request -/

/-- The part that WRITE SETTING hands to the end of its event. -/
def Part.settingSent (p : Part) (rest : List (List Byte)) (n : Fin 40) (v : Int) (a : Answer) : Part :=
  answered p.link.sendList a (settingTaken n v (p.handed rest))

theorem settingSent_store (p : Part) (rest : List (List Byte)) (n : Fin 40) (v : Int) (a : Answer) :
    (p.settingSent rest n v a).store = (p.withSetting n v).store :=
  (answered_store ..).trans (settingTaken_store n v (p.handed rest))

theorem Quiet.settingSent_pending {p : Part} (quiet : Quiet p) (rest : List (List Byte)) (n : Fin 40) (v : Int) (a : Answer) :
    (p.settingSent rest n v a).boot.resetPending = none ∨ (p.settingSent rest n v a).link.busOff = false := by
  have serves := settingTaken_serves n v (p.handed rest)
  refine quiet.pending.imp (fun k => ?_) fun k => ?_
  · exact serves.pending.trans k
  · exact serves.busOff.trans k

/-- Whatever the write does at once and the end of the event after it, the setting is the only value that changes. -/
theorem settingSent_store_end {p : Part} (quiet : Quiet p) (rest : List (List Byte)) (n : Fin 40) (v : Int) (a : Answer) :
    (conclude p (p.settingSent rest n v a)).store = (p.withSetting n v).store :=
  (conclude_follows p (quiet.settingSent_pending rest n v a)).headWork.store.trans (settingSent_store p rest n v a)

section Beside
variable {p x : Part} {n : Fin 40} {v : Int}

theorem Writes.setting_value (w : Writes p x) (store : x.store = (p.withSetting n v).store) (f : Species → Int) :
    x.speciesValue f = p.speciesValue f :=
  speciesValue_congr (p := p.withSetting n v) (by rw [w.eqn]; rfl) store f

theorem setting_beside (store : x.store = (p.withSetting n v).store) {m : Fin 40} (h : n ≠ m) : x.setting m = p.setting m :=
  (setting_of_store store m).trans (withSetting_ne p h v)

variable (w : Writes p x) (quiet : Quiet p) (store : x.store = (p.withSetting n v).store) (boost : n ≠ 14) (limit : n ≠ 34)
  (length : x.length = p.length)
include w quiet store boost limit length

/-- A setting that neither clamping nor the log reads leaves length unit, knives and image. -/
theorem Writes.beside_end :
    let q := conclude p x
    q.length = p.length ∧ q.knife.pressure = p.knife.pressure ∧ q.link.image = p.link.image ∧ q.link.valve = x.link.valve
      ∧ q.link.refresh = if p.sendsValve then x.link.refresh else none := by
  have value : ∀ f, x.speciesValue f = p.speciesValue f := w.setting_value store
  have pressure : ∀ k, x.knifePressure k = p.knifePressure k :=
    knifePressure_congr (value _) (value _) (value _) (setting_beside store boost) (setting_beside store limit)
      (by rw [w.eqn]) (by rw [w.eqn])
  exact ⟨w.length_end quiet length, w.pressure_end quiet pressure,
    w.link_end quiet pressure (feedDemand_congr (by rw [w.eqn]) (value _) (value _))⟩

omit boost limit length in
/-- A setting that no line and no watch of the diameter unit reads leaves the drop timer with the lines. -/
theorem Writes.dropTimer_beside (out : n.val < 18 ∨ 33 < n.val) (lines : x.diameter.lines = p.diameter.lines) :
    (conclude p x).diameter.dropTimer = p.diameter.dropTimer :=
  w.dropTimer_end quiet (stemGone_of_settings w.active (by rw [w.eqn]) lines fun m low high =>
    setting_beside store fun e => by rw [e] at out; omega)

end Beside

/-! ### The plain settings and the lines' -/

section Clauses
variable {p : Part} (quiet : Quiet p) (ready : p.boot.ready = true) (short : p.link.sendList.length < 16)
  (rest : List (List Byte)) {n : Fin 40} {v : Int} (a : Answer)
include quiet ready short

theorem settingSent_plain_end (hn : n ∉ actingSettings) :
    let q := conclude p (p.settingSent rest n v a)
    ValveOnly ({ p with
      store := q.store
      length := { p.length with history := q.length.history, carry := q.length.carry, slip := q.length.slip }
      diameter := { p.diameter with dropTimer := q.diameter.dropTimer }
      knife := { p.knife with pressure := q.knife.pressure } }.withAnswer a rest) q ∧ Rescaled p q := by
  have w : Writes p (rescale (p.handed rest) ((p.handed rest).withSetting n v)) :=
    ((Writes.of_handed p rest).trans (.of_setting _ n v)).trans (.of_rescale _ _)
  have sent : p.settingSent rest n v a = answered p.link.sendList a (rescale (p.handed rest) ((p.handed rest).withSetting n v)) :=
    congrArg (answered p.link.sendList a) (settingTaken_plain hn v _)
  rw [sent]
  have ends := w.answered_ends quiet ready short (rest := rest) rfl rfl a
  have monitor := (w.trans (.of_answered p.link.sendList a _)).monitor_end quiet
  have lines := (w.trans (.of_answered p.link.sendList a _)).lines_end quiet
  rw [answered_monitor, rescale_monitor] at monitor
  rw [answered_diameter, rescale_diameter] at lines
  refine ⟨?_, conclude_rescaled (x := p.withSetting n v) p quiet.pending rfl rfl rfl rfl rfl rfl⟩
  unfold Part.wroteAs at ends
  rw [monitor, lines] at ends
  exact ends

/-- The one reason for every setting that touches a line at most. -/
theorem settingSent_line_end (boost : n ≠ 14) (limit : n ≠ 34) (l : Line) (u : LineUnit)
    (taken : settingTaken n v (p.handed rest) = ((p.handed rest).withSetting n v).setLine l u) :
    let q := conclude p (p.settingSent rest n v a)
    q.diameter.lines = (p.setLine l u).diameter.lines ∧
    ValveOnly ({ p with
      store := q.store
      diameter := { p.diameter with lines := q.diameter.lines, dropTimer := q.diameter.dropTimer } }.withAnswer a rest) q := by
  have w : Writes p (((p.handed rest).withSetting n v).setLine l u) :=
    ((Writes.of_handed p rest).trans (.of_setting _ n v)).trans (.of_line _ l u)
  have sent : p.settingSent rest n v a = answered p.link.sendList a (((p.handed rest).withSetting n v).setLine l u) :=
    congrArg (answered p.link.sendList a) taken
  rw [sent]
  have ends := w.answered_ends quiet ready short (rest := rest) rfl rfl a
  have w := w.trans (.of_answered p.link.sendList a _)
  obtain ⟨length, pressure, -⟩ := w.beside_end quiet (n := n) (v := v) rfl boost limit rfl
  have monitor := w.monitor_end quiet
  have lines := w.lines_end quiet
  refine ⟨lines, ?_⟩
  unfold Part.wroteAs at ends
  rw [length, pressure, monitor] at ends
  exact ends

/-- A write that is a change of the setting alone. -/
theorem settingSent_idle_end (boost : n ≠ 14) (limit : n ≠ 34) (out : n.val < 18 ∨ 33 < n.val)
    (taken : settingTaken n v (p.handed rest) = (p.handed rest).withSetting n v) :
    let q := conclude p (p.settingSent rest n v a)
    ValveOnly ({ p with store := q.store }.withAnswer a rest) q := by
  have w : Writes p ((p.handed rest).withSetting n v) := (Writes.of_handed p rest).trans (.of_setting _ n v)
  have sent : p.settingSent rest n v a = answered p.link.sendList a ((p.handed rest).withSetting n v) :=
    congrArg (answered p.link.sendList a) taken
  rw [sent]
  have ends := w.answered_ends quiet ready short (rest := rest) rfl rfl a
  have w := w.trans (.of_answered p.link.sendList a _)
  obtain ⟨length, pressure, -⟩ := w.beside_end quiet (n := n) (v := v) rfl boost limit rfl
  have monitor := w.monitor_end quiet
  have lines := w.lines_end quiet
  have timer := w.dropTimer_beside quiet (n := n) (v := v) rfl out rfl
  unfold Part.wroteAs at ends
  rw [length, pressure, monitor, lines, timer] at ends
  exact ends

/-! ### VALVE_REFRESH -/

omit quiet ready short in
theorem Writes.of_refreshCompare (p : Part) : Writes p (refreshCompare p) := by
  unfold refreshCompare
  split
  · exact .of_frame p
  · exact ⟨rfl, rfl⟩

omit quiet ready short in
theorem refreshCompare_beside (p : Part) : refreshCompare p = { p with
    link := { p.link with valve := (refreshCompare p).link.valve, refresh := (refreshCompare p).link.refresh } } := by
  unfold refreshCompare
  split <;> rfl

omit quiet ready short in
/-- A refresh timer that has run the new limit has a frame built of the image as it stands (10 R200). -/
theorem refreshCompare_due {p : Part} {t : Nat} (sends : p.sendsValve = true) (timer : p.link.refresh = some t) (le : v ≤ t) :
    refreshCompare (p.withSetting 35 v) = buildFrame (p.withSetting 35 v) := by
  have due : ran (p.withSetting 35 v).link.refresh ((p.withSetting 35 v).setting 35) = true := by
    rw [withSetting_own, show (p.withSetting 35 v).link.refresh = some t from timer]
    simpa [ran] using le
  have still : (p.withSetting 35 v).sendsValve = true := sends
  rw [refreshCompare, still, due]
  rfl

theorem settingSent_refresh_end :
    let q := conclude p (p.settingSent rest 35 v a)
    ValveOnly ({ p with store := q.store }.withAnswer a rest) q
      ∧ ∀ t : Nat, p.sendsValve = true → p.link.refresh = some t → v ≤ t →
        q.link.valve = some { id := p.valveId, data := valveData q.link.image } ∧ q.link.refresh = some 0 := by
  set y := refreshCompare ((p.handed rest).withSetting 35 v) with hy
  have beside := refreshCompare_beside ((p.handed rest).withSetting 35 v)
  rw [← hy] at beside
  have w : Writes p y := ((Writes.of_handed p rest).trans (.of_setting _ 35 v)).trans (.of_refreshCompare _)
  have sent : p.settingSent rest 35 v a = answered p.link.sendList a y :=
    congrArg (answered p.link.sendList a) (settingTaken_refresh v _)
  rw [sent]
  have ends := w.answered_ends quiet ready short (rest := rest) (by rw [beside]; rfl) (by rw [beside]; rfl) a
  have store : (answered p.link.sendList a y).store = (p.withSetting 35 v).store := by rw [beside]; rfl
  have w := w.trans (.of_answered p.link.sendList a _)
  obtain ⟨length, pressure, image, valve, refresh⟩ := w.beside_end quiet (n := 35) (v := v) store (by decide) (by decide)
    (by rw [beside]; rfl)
  have monitor := (w.monitor_end quiet).trans (show _ = p.monitor by rw [beside]; rfl)
  have lines := (w.lines_end quiet).trans (show _ = p.diameter.lines by rw [beside]; rfl)
  have timer := w.dropTimer_beside quiet (n := 35) (v := v) store (.inr (by decide)) (by rw [beside]; rfl)
  refine ⟨?_, fun t sends due le => ?_⟩
  · unfold Part.wroteAs at ends
    rw [length, pressure, monitor, lines, timer] at ends
    exact ends
  · have built : y = buildFrame ((p.handed rest).withSetting 35 v) := refreshCompare_due (p := p.handed rest) sends due le
    have id : ((p.handed rest).withSetting 35 v).valveId = p.valveId := by
      unfold Part.valveId
      rw [withSetting_ne _ (by decide)]
      rfl
    rw [valve, refresh, image, if_pos sends, answered_link_valve, answered_link_refresh, built]
    refine ⟨?_, rfl⟩
    change some ({ id := ((p.handed rest).withSetting 35 v).valveId, data := valveData p.link.image } : OutFrame) = _
    rw [id]

/-! ### SNOOP_ENABLE -/

omit quiet ready short in
/-- Snooping takes a takeover over or gives it up; a takeover stays in force (08 R168). -/
theorem snoopWritten_eq (p : Part) : snoopWritten p = { p with monitor := { p.monitor with
      takeover := (snoopWritten p).monitor.takeover, stick := (snoopWritten p).monitor.stick } }
    ∧ (snoopWritten p).monitor.takeover.inForce = p.monitor.takeover.inForce := by
  unfold snoopWritten
  split <;> (refine ⟨rfl, ?_⟩; dsimp only; cases p.monitor.takeover <;> rfl)

theorem settingSent_snoop_end (hv : v ≠ p.setting 38) :
    let q := conclude p (p.settingSent rest 38 v a)
    q.monitor = (snoopWritten ((p.handed rest).withSetting 38 v)).monitor
      ∧ ValveOnly ({ p with
        store := q.store
        monitor := { p.monitor with takeover := q.monitor.takeover, stick := q.monitor.stick } }.withAnswer a rest) q := by
  set y := snoopWritten ((p.handed rest).withSetting 38 v) with hy
  obtain ⟨beside, inForce⟩ := snoopWritten_eq ((p.handed rest).withSetting 38 v)
  rw [← hy] at beside
  have w : Writes p y := ((Writes.of_handed p rest).trans (.of_setting _ 38 v)).trans ⟨by rw [beside], inForce⟩
  have sent : p.settingSent rest 38 v a = answered p.link.sendList a y :=
    congrArg (answered p.link.sendList a) (settingTaken_snoop (p := p.handed rest) hv)
  rw [sent]
  have ends := w.answered_ends quiet ready short (rest := rest) (by rw [beside]; rfl) (by rw [beside]; rfl) a
  have store : (answered p.link.sendList a y).store = (p.withSetting 38 v).store := by rw [beside]; rfl
  have w := w.trans (.of_answered p.link.sendList a _)
  obtain ⟨length, pressure, -⟩ := w.beside_end quiet (n := 38) (v := v) store (by decide) (by decide) (by rw [beside]; rfl)
  have monitor := w.monitor_end quiet
  have lines := (w.lines_end quiet).trans (show _ = p.diameter.lines by rw [beside]; rfl)
  have timer := w.dropTimer_beside quiet (n := 38) (v := v) store (.inr (by decide)) (by rw [beside]; rfl)
  refine ⟨monitor.trans (answered_monitor ..), ?_⟩
  unfold Part.wroteAs at ends
  rw [length, pressure, lines, timer] at ends
  exact ends

end Clauses

end Sys2Proof.Machine
end
section
namespace Sys2Proof.Machine

/-! ### RETURN_TIME_LIMIT: the bar is jammed at once -/

section Jam
variable {p : Part} (quiet : Quiet p) (rest : List (List Byte)) {v : Int} (a : Answer)

/-- The part whose return timer has run the limit just written (06 R133). -/
def Part.jamAt (p : Part) (rest : List (List Byte)) (v : Int) : Part :=
  raise .sawJam { (p.handed rest).withSetting 16 v with saw := { p.saw with state := .jammed, returnTimer := none } }

theorem settingSent_jam {t : Nat} (hv : v ≠ p.setting 16) (state : p.saw.state = .returning) (timer : p.saw.returnTimer = some t)
    (le : v ≤ t) : p.settingSent rest 16 v a = answered p.link.sendList a (feedCutOver (p.jamAt rest v)) := by
  have taken : settingTaken 16 v (p.handed rest) = returnTimesOut ((p.handed rest).withSetting 16 v) :=
    settingTaken_returnLimit (p := p.handed rest) hv timer le
  rw [Part.settingSent, taken, returnTimesOut, if_pos (show ((p.handed rest).withSetting 16 v).saw.state = _ from state)]
  rfl

include quiet

theorem jam_end :
    let q := conclude p (answered p.link.sendList a (feedCutOver (p.jamAt rest v)))
    q.saw = { p.saw with state := .jammed, returnTimer := none } ∧ q.raised .sawJam = true
      ∧ RaisesOnly [.sawJam, .stall] p q
      ∧ (p.feed.cutTaken = true → q.feed.state = q.decision ∧ q.feed.request = .none)
      ∧ (p.feed.cutTaken = false → q.feed = p.feed)
      ∧ Follows { p with store := q.store, saw := q.saw, link := { p.link with requests := rest } } q := by
  set x := p.jamAt rest v with hx
  have only := feedCutOver_feedOnly x
  set y := answered p.link.sendList a (feedCutOver x) with hy
  have pend : y.boot.resetPending = none ∨ y.link.busOff = false := by
    rw [hy, answered_boot, answered_link_busOff, only.boot, only.busOff]
    exact quiet.pending
  have fol : Follows x (conclude p y) := (only.follows.trans (.of_answered _ a _)).trans (conclude_follows p pend)
  have holds : y.holdPasses = false := by
    rcases taken : x.feed.cutTaken
    · rw [hy, feedCutOver_untaken taken]
      exact quiet.holds
    · exact (feedCutOver_decides taken (by simp [hx, Part.jamAt, raise])).2.2
  obtain ⟨feed, conditions⟩ := conclude_unheld p pend holds
  have raises : RaisesOnly feedRaises x (conclude p y) :=
    (feedCutOver_works x).raises.trans (.of_conditions (conditions.trans (answered_link_conditions ..)))
  refine ⟨fol.saw, ?_, ?_, fun taken => ?_, fun untaken => ?_, ?_⟩
  · rw [(raises .sawJam).2 (by simp [feedRaises])]
    exact (raised_raise .sawJam .sawJam _).trans (by simp)
  · exact (RaisesOnly.of_raise (List.mem_cons_self ..) _).trans (raises.mono (by simp [feedRaises]))
  · have out : x.saw.state ≠ .parked := by simp [hx, Part.jamAt, raise]
    obtain ⟨state, request, -⟩ := feedCutOver_decides (p := x) taken out
    obtain ⟨-, decision⟩ := conclude_decided p pend (by rw [hy, answered_saw, only.saw]; exact out) holds
    rw [feed, decision]
    exact ⟨state, request⟩
  · rw [feed, hy, answered_feed, feedCutOver_untaken (x := x) untaken]
    rfl
  · rw [fol.saw]
    have store : (conclude p y).store = x.store := fol.headWork.store
    rw [store]
    refine Follows.trans ?_ fol
    rfl

end Jam

/-! ### CUT_TIME_LIMIT: the cut is aborted at once -/

/-- An abort is seen in the table, the log and the held entry alone. -/
theorem CutAborted.congr {p y q : Part} (h : CutAborted p y) (table : q.table = y.table) (carry : q.length.carry = y.length.carry)
    (logPos : q.length.logPos = y.length.logPos) (history : q.length.history = y.length.history)
    (held : q.feed.held = y.feed.held) (corrections : q.feed.corrections = y.feed.corrections) : CutAborted p q := by
  unfold CutAborted OtherSlotsKept Part.recordAt at h ⊢
  rw [table, carry, logPos, history, held, corrections]
  exact h

theorem Over.of_self (x : Part) : Over x x :=
  ⟨rfl, fun _ => ⟨rfl, rfl, rfl, rfl, rfl, rfl⟩, fun h _ => ⟨h, rfl⟩, rfl, rfl, rfl, rfl, fun _ _ h _ => h⟩

/-- An abort, answered: what is seen of it once the request is over. -/
theorem CutAborted.answered_end {p y : Part} (h : CutAborted p y) (b : Part) (old : List SendItem) (a : Answer)
    (pend : y.boot.resetPending = none ∨ y.link.busOff = false) : CutAborted p (conclude b (answered old a y)) := by
  have pend' : (answered old a y).boot.resetPending = none ∨ (answered old a y).link.busOff = false := pend
  have ended := Over.of_conclude b pend'
  exact h.congr ended.table ended.carry ended.logPos ended.history (ended.seen 0).held (ended.seen 0).corrections

section Abort
variable {p : Part} (quiet : Quiet p) (rest : List (List Byte)) {v : Int} (a : Answer)

/-- The part whose bar returns for a cause, the limit just written (06 R129, R131). -/
def Part.abortAt (p : Part) (rest : List (List Byte)) (v : Int) (cause : ReturnCause) : Part :=
  { (p.handed rest).withSetting 15 v with saw := p.saw.return_ cause }

/-- What the abort at an attempt leaves for the end of the event: at the second the cut is over (06 R131). -/
def Part.abortedAt (p : Part) (rest : List (List Byte)) (v : Int) (second : Bool) : Part :=
  if second then feedCutOver (cutAbort (raise .sawTimeout (p.abortAt rest v .secondTimeout)))
  else cutAbort (p.abortAt rest v .firstTimeout)

theorem settingSent_abort {t : Nat} {c : Cycle} (hv : v ≠ p.setting 15) (state : p.saw.state = .advancing)
    (timer : p.saw.cutTimer = some t) (le : v ≤ t) (away : p.pins.homeClosed = false) (cycle : p.saw.cycle = some c) :
    p.settingSent rest 15 v a = answered p.link.sendList a (p.abortedAt rest v (c.attempt == 2)) := by
  have taken : settingTaken 15 v (p.handed rest) = cutTimesOut ((p.handed rest).withSetting 15 v) :=
    settingTaken_cutLimit (p := p.handed rest) hv timer le
  have attempt : (((p.handed rest).withSetting 15 v).saw.cycle.map (·.attempt)).getD 1 = c.attempt := by
    rw [show ((p.handed rest).withSetting 15 v).saw.cycle = some c from cycle]
    rfl
  rw [Part.settingSent, taken]
  by_cases second : c.attempt = 2
  · rw [cutTimes_second (p := (p.handed rest).withSetting 15 v) state (attempt.trans second) away, second]
    rfl
  · rw [cutTimes_first (p := (p.handed rest).withSetting 15 v) state (by rwa [attempt]) away, beq_false_of_ne second]
    rfl

/-- The conditions that an abort at an attempt may raise. -/
def abortRaises (second : Bool) : List Condition := if second then [.sawTimeout, .stall, .diamReject] else [.stall, .diamReject]

/-- What stands of the abort before the answer and the end of the event. -/
theorem abortedAt_works (second : Bool) :
    let y := p.abortedAt rest v second
    CutAborted p y ∧ y.saw = p.saw.return_ (if second then .secondTimeout else .firstTimeout)
      ∧ (second = true → y.raised .sawTimeout = true) ∧ Works (abortRaises second) (p.handed rest) y
      ∧ HeadWork { p with store := (p.withSetting 15 v).store, link := { p.link with requests := rest } } y := by
  cases second
  · set x := p.abortAt rest v .firstTimeout with hx
    have work := cutAbort_works x
    have aborted : CutAborted x (cutAbort x) := cutAbort_aborted (.of_self _)
    refine ⟨aborted, (cutAbort_planWork x).saw, nofun, (work.mono (by simp [feedRaises, abortRaises])).after rfl rfl,
      HeadWork.trans ?_ (cutAbort_headWork x)⟩
    rfl
  · set x := raise .sawTimeout (p.abortAt rest v .secondTimeout) with hx
    have work : Works feedRaises x (feedCutOver (cutAbort x)) := (cutAbort_works x).trans (feedCutOver_works _)
    have aborted : CutAborted x (feedCutOver (cutAbort x)) := cutAbort_aborted (.of_feedCutOver (.of_self _))
    refine ⟨aborted, (feedCutOver_feedOnly _).saw.trans (cutAbort_planWork x).saw, fun _ => ?_, ?_, HeadWork.trans ?_
      ((cutAbort_headWork x).trans (feedCutOver_feedOnly _).headWork)⟩
    · change (feedCutOver (cutAbort x)).raised .sawTimeout = true
      rw [(work.raises .sawTimeout).2 (by simp [feedRaises])]
      exact (raised_raise .sawTimeout .sawTimeout _).trans (by simp)
    · exact ((Works.of_raise .sawTimeout (p.abortAt rest v .secondTimeout) (by simp [abortRaises])).trans
        (work.mono (by simp [feedRaises, abortRaises]))).after rfl rfl
    · rfl

include quiet

theorem abort_end (second : Bool) :
    let q := conclude p (answered p.link.sendList a (p.abortedAt rest v second))
    CutAborted p q ∧ q.saw = p.saw.return_ (if second then .secondTimeout else .firstTimeout)
      ∧ (second = true → q.raised .sawTimeout = true) ∧ RaisesOnly (abortRaises second) p q
      ∧ HeadWork { p with store := q.store, link := { p.link with requests := rest } } q := by
  obtain ⟨aborted, saw, raised, works, head⟩ := abortedAt_works (p := p) (v := v) rest second
  set y := p.abortedAt rest v second with hy
  have pend : y.boot.resetPending = none ∨ y.link.busOff = false := by
    rw [works.boot, head.busOff]
    exact quiet.pending
  have pend' : (answered p.link.sendList a y).boot.resetPending = none ∨ (answered p.link.sendList a y).link.busOff = false := pend
  have fol := conclude_follows p pend'
  have raises : RaisesOnly endRaises y (conclude p (answered p.link.sendList a y)) :=
    RaisesOnly.trans (.of_conditions (answered_link_conditions ..)) (conclude_raises p pend')
  have store : (conclude p (answered p.link.sendList a y)).store = (p.withSetting 15 v).store :=
    fol.headWork.store.trans head.store
  refine ⟨aborted.answered_end p _ a pend, fol.saw.trans saw, fun k => ?_, ?_, ?_⟩
  · rw [(raises .sawTimeout).2 (by simp [endRaises, feedRaises])]
    exact raised k
  · refine RaisesOnly.trans (p := p) works.raises (raises.mono ?_)
    cases second <;> simp [endRaises, feedRaises, abortRaises]
  · rw [store]
    exact head.trans ((Follows.of_answered _ a y).headWork.trans fol.headWork)

end Abort

/-! ### TAKEOVER_RELEASE: the takeover ends at once -/

theorem hasActive_isSome (p : Part) : p.hasActive = p.activeRecord.isSome := by
  unfold Part.hasActive
  rcases h : p.activeSlot with _ | i
  · simp [Part.activeRecord, h]
  · obtain ⟨r, hr, -⟩ := (isActive_iff p i).mp (activeSlot_isActive h)
    rw [activeRecord_of_slot h, hr]
    rfl

/-- With the value GRIP and no takeover the decision is GRIP at work on a stem, else IDLE (05 R98). -/
theorem decision_grip_free {p : Part} (value : p.feed.value = .grip) (free : p.monitor.takeover.inForce = false) :
    p.decision = if p.hasActive && p.monitor.profile.works then .grip else .idle := by
  rw [hasActive_isSome]
  rcases hr : p.activeRecord with _ | r
  · simp [Part.decision, hr]
  · rw [decision_grip hr value, free]
    cases p.monitor.profile.works <;> rfl

theorem withdraw_cutTaken (f : Feed) (v : FeedValue) : Feed.cutTaken { f.withdraw with value := v } = f.cutTaken := by
  rw [Bool.eq_iff_iff, Feed.cutTaken_iff, Feed.cutTaken_iff]
  unfold Feed.withdraw
  cases f.request <;> simp

/-- The feed at the end of a takeover: GRIP or IDLE, or on in CUT_WAIT for a cut that the saw has taken (08 R171, 05 R96). -/
theorem feedSetValue_grip {p : Part} (free : p.monitor.takeover.inForce = false) :
    let q := feedSetValue .grip p
    q.feed.pendingDirect = false ∧ q.link = p.link
      ∧ (p.feed.cutTaken = false → q.feed.state = if p.hasActive && p.monitor.profile.works then .grip else .idle)
      ∧ q.feed.held = p.feed.held ∧ q.feed.corrections = p.feed.corrections ∧ q.holdPasses = false := by
  set x : Part := { p with feed := { p.feed.withdraw with value := .grip } } with hx
  have taken : x.feed.cutTaken = p.feed.cutTaken := withdraw_cutTaken p.feed .grip
  have eq : feedSetValue .grip p = if x.feed.cutTaken then x else feedDecide x := rfl
  rw [eq, taken]
  rcases cut : p.feed.cutTaken
  · have decision : x.decision = if p.hasActive && p.monitor.profile.works then .grip else .idle :=
      decision_grip_free (p := x) rfl free
    have state := feedDecide_state x
    have rests : x.decision = .grip ∨ x.decision = .idle := by
      rw [decision]
      split <;> simp
    refine ⟨feedDecide_pendingDirect x, feedDecide_link (by rcases rests with k | k <;> simp [k]), fun _ => state.trans decision,
      feedDecide_held x, feedDecide_corrections x,
      holdPasses_of_state state (by rcases rests with k | k <;> simp [k]) (by rcases rests with k | k <;> simp [k])⟩
  · exact ⟨rfl, rfl, nofun, rfl, rfl, holdPasses_of_state (p := x) (p.feed.cutTaken_iff.mp cut).1 (by simp) (by simp)⟩

section Release
variable {p : Part} (quiet : Quiet p) (rest : List (List Byte)) {v : Int} (a : Answer)

/-- The part whose release timer has run the limit just written (08 R167). -/
def Part.releasedAt (p : Part) (rest : List (List Byte)) (v : Int) : Part :=
  { (p.handed rest).withSetting 39 v with monitor := { p.monitor with takeover := .none } }

theorem settingSent_release {t : Nat} (hv : v ≠ p.setting 39) (snooped : p.monitor.takeover = .snooped t) (le : v ≤ t) :
    p.settingSent rest 39 v a = answered p.link.sendList a (feedSetValue .grip (p.releasedAt rest v)) := by
  have taken : settingTaken 39 v (p.handed rest) = takeoverEnds ((p.handed rest).withSetting 39 v) :=
    settingTaken_release (p := p.handed rest) hv snooped le
  rw [Part.settingSent, taken]
  rfl

include quiet

theorem release_end :
    let q := conclude p (answered p.link.sendList a (feedSetValue .grip (p.releasedAt rest v)))
    TakeoverEnded p q ∧ Follows { p with
      store := q.store
      monitor := { p.monitor with takeover := .none }
      link := { p.link with requests := rest } } q := by
  set x := p.releasedAt rest v with hx
  obtain ⟨pending, link, state, held, corrections, holds⟩ := feedSetValue_grip (p := x) rfl
  have only := feedSetValue_feedOnly .grip x
  set y := answered p.link.sendList a (feedSetValue .grip x) with hy
  have pend : y.boot.resetPending = none ∨ y.link.busOff = false := by
    rw [hy, answered_boot, answered_link_busOff, only.boot, only.busOff]
    exact quiet.pending
  obtain ⟨feed, conditions⟩ := conclude_unheld p pend holds
  have fol : Follows x (conclude p y) := (only.follows.trans (.of_answered _ a _)).trans (conclude_follows p pend)
  refine ⟨⟨by rw [fol]; rfl, ?_, ?_, ?_, ?_, ?_, ?_⟩, ?_⟩
  · rw [feed]
    exact feedSetValue_value .grip x
  · rw [feed]
    exact pending
  · rw [feed]
    exact state
  · rw [feed]
    exact held
  · rw [feed]
    exact corrections
  · rw [conditions, hy, answered_link_conditions, link]
    rfl
  · have store : (conclude p y).store = x.store := fol.headWork.store
    rw [store]
    refine Follows.trans ?_ fol
    rfl

end Release

end Sys2Proof.Machine
end
section
namespace Sys2Proof.Machine

/-! ### A line's supervision after a write of its settings -/

theorem enableSeen_off {p : Part} {l : Line} (h : p.lineEnabled l = false) :
    (p.enableSeen l).state = .disabled ∧ (p.enableSeen l).run = none := by
  unfold Part.enableSeen
  rw [if_neg (by simp [h])]
  exact ⟨rfl, rfl⟩

theorem enableSeen_on {p : Part} {l : Line} (h : p.lineEnabled l = true) :
    (p.enableSeen l).state = .qualifying ∧ (p.enableSeen l).run = some 0 := by
  unfold Part.enableSeen
  rw [if_pos h]
  exact ⟨rfl, rfl⟩

theorem windowSeen_off {p : Part} {l : Line} (h : (p.line l).state = .disabled) : p.windowSeen l = p.line l := if_pos h

theorem windowSeen_run {p : Part} {l : Line} (h : (p.line l).state ≠ .disabled) : (p.windowSeen l).run = some 0 := by
  rw [Part.windowSeen, if_neg h]
  rfl

/-- A line that is not in FAULT keeps its state when its reading is classed anew (04 R79). -/
theorem windowSeen_state {p : Part} {l : Line} (h : ∀ k, (p.line l).state ≠ .fault k) :
    (p.windowSeen l).state = (p.line l).state := by
  unfold Part.windowSeen
  split
  · rfl
  · unfold LineUnit.see
    dsimp only
    split
    next fault _ => exact absurd fault (h _)
    · rfl

theorem line_of_lines {p q : Part} (h : q.diameter.lines = p.diameter.lines) (l : Line) : q.line l = p.line l := by
  unfold Part.line
  rw [h]

section LineClauses
variable {p : Part} (quiet : Quiet p) (ready : p.boot.ready = true) (short : p.link.sendList.length < 16)
  (rest : List (List Byte)) {v : Int} (a : Answer) {l : Line}
include quiet ready short

theorem settingSent_enable_end (hv : v ≠ p.setting (enableOf l)) :
    let q := conclude p (p.settingSent rest (enableOf l) v a)
    (v = 0 → (q.line l).state = .disabled ∧ (q.line l).run = none)
      ∧ (v = 1 → (q.line l).state = .qualifying ∧ (q.line l).run = some 0)
      ∧ ∀ l', l' ≠ l → q.line l' = p.line l' := by
  obtain ⟨lines, -⟩ := settingSent_line_end quiet ready short rest a (by cases l <;> decide) (by cases l <;> decide) l _
    (settingTaken_enable (p := p.handed rest) hv)
  have line := line_of_lines lines
  refine ⟨fun off => ?_, fun on => ?_, fun l' other => (line l').trans (line_setLine_ne p other _)⟩
  · rw [line l, line_setLine_self]
    exact enableSeen_off (by rw [lineEnabled_withSetting, off]; rfl)
  · rw [line l, line_setLine_self]
    exact enableSeen_on (by rw [lineEnabled_withSetting, on]; rfl)

theorem settingSent_window_end {n : Fin 40} (hn : n.val = 21 + (lineIdx l).val ∨ n.val = 24 + (lineIdx l).val)
    (hv : v ≠ p.setting n) :
    let q := conclude p (p.settingSent rest n v a)
    ((p.line l).state = .disabled → q.line l = p.line l)
      ∧ ((p.line l).state ≠ .disabled → (q.line l).run = some 0)
      ∧ ((∀ k, (p.line l).state ≠ .fault k) → (q.line l).state = (p.line l).state)
      ∧ ∀ l', l' ≠ l → q.line l' = p.line l' := by
  have ne : n ≠ 14 ∧ n ≠ 34 := by
    have idx := (lineIdx l).isLt
    constructor <;> (intro e; rw [e] at hn; simp at hn; omega)
  obtain ⟨lines, -⟩ := settingSent_line_end quiet ready short rest a ne.1 ne.2 l _
    (settingTaken_window (p := p.handed rest) hn hv)
  have line := line_of_lines lines
  have own := (line l).trans (line_setLine_self p l _)
  refine ⟨fun off => own.trans (windowSeen_off off), fun on => ?_, fun sound => ?_,
    fun l' other => (line l').trans (line_setLine_ne p other _)⟩
  · rw [own]
    exact windowSeen_run on
  · rw [own]
    exact windowSeen_state sound

end LineClauses

/-- Settles O31: the handler's part by the setting written (`settingTaken`); a write that leaves all that the end of an event reads
is a matter of `Writes`, a timer that has run its new limit does the work of its expiry. -/
theorem writeSettingTakesTheValue : Obligations.WriteSettingTakesTheValue := by
  intro s tag args rest n hs h hn v ok
  have quiet := hs.quiet h.1.1.1
  have ready := ready_of_granted h (by decide)
  have short : s.part.link.sendList.length < 16 := h.1.1.2.2.1
  obtain ⟨run, replies⟩ := granted_accepts h (by decide) (by decide) (writeSetting_handled hn h.2.2)
  have same : v = s.part.setting n → n ≠ 35 →
      conclude s.part (s.part.settingSent rest n v ok) = s.part.withAnswer ok rest := fun hv ne => by
    rw [Part.settingSent, settingTaken_same (p := s.part.handed rest) hv ne]
    exact conclude_refused quiet ok rest short
  refine ⟨conclude s.part (s.part.settingSent rest n v ok), run, replies, settingSent_store_end quiet rest n v ok, same,
    settingSent_plain_end quiet ready short rest ok, fun line => ?_, ?_, ?_, ?_, ?_, ?_, ?_, ?_, ?_, ?_, ?_, ?_, ?_⟩
  · obtain ⟨l, u, taken⟩ := settingTaken_line line v (s.part.handed rest)
    have ne : n ≠ 14 ∧ n ≠ 34 := by
      constructor <;> (rintro rfl; revert line; decide)
    exact (settingSent_line_end quiet ready short rest ok ne.1 ne.2 l u taken).2
  · rintro rfl
    exact (settingSent_refresh_end quiet ready short rest ok).1
  · rintro rfl
    by_cases hv : v = s.part.setting 38
    · rw [same hv (by decide)]
      rfl
    · exact (settingSent_snoop_end quiet ready short rest ok hv).2
  · rintro rfl idle
    exact settingSent_idle_end quiet ready short rest ok (by decide) (by decide) (.inr (by decide))
      (settingTaken_release_idle (p := s.part.handed rest) idle)
  · rintro rfl idle
    exact settingSent_idle_end quiet ready short rest ok (by decide) (by decide) (.inl (by decide))
      (settingTaken_cutLimit_idle (p := s.part.handed rest) idle)
  · rintro rfl idle
    exact settingSent_idle_end quiet ready short rest ok (by decide) (by decide) (.inl (by decide))
      (settingTaken_returnLimit_idle (p := s.part.handed rest) idle)
  · intro l number hv
    obtain rfl := enableOf_eq number
    exact settingSent_enable_end quiet ready short rest ok hv
  · intro l number hv
    exact settingSent_window_end quiet ready short rest ok number hv
  · rintro rfl hv
    obtain ⟨monitor, ends⟩ := settingSent_snoop_end quiet ready short rest ok hv
    refine ⟨?_, ?_, fun off => ?_, fun on => ?_⟩
    · rw [ends]
      rfl
    · rw [ends]
      rfl
    · rw [monitor, snoopWritten, if_neg (by rw [withSetting_own]; omega)]
      exact ⟨rfl, rfl⟩
    · rw [monitor, snoopWritten, if_pos (by rw [withSetting_own]; exact on)]
      exact ⟨rfl, rfl⟩
  · rintro t rfl hv snooped le
    rw [settingSent_release rest ok hv snooped le]
    exact release_end quiet rest ok
  · rintro t rfl sends timer le
    exact (settingSent_refresh_end quiet ready short rest ok).2 t sends timer le
  · rintro t rfl hv state timer le
    rw [settingSent_jam rest ok hv state timer le]
    exact jam_end quiet rest ok
  · rintro t rfl hv state timer le away c cycle
    rw [settingSent_abort rest ok hv state timer le away cycle]
    obtain ⟨aborted, saw, raised, raises, head⟩ := abort_end (v := v) quiet rest ok (c.attempt == 2)
    refine ⟨aborted, ?_, fun second => raised (by simpa using second), ?_, head⟩
    · rw [saw]
      by_cases second : c.attempt = 2
      all_goals simp [Saw.return_, cycle, second]
    · simpa [abortRaises] using raises

end Sys2Proof.Machine
end

section
namespace Sys2Proof.Machine

/-! ### Work on the arm lines -/

/-- From `p` to `q` the supervision of the arm lines has moved: nothing has changed but the lines, the conditions and notices they
raise, and readiness with its timer. -/
def LineWork (p q : Part) : Prop :=
  q = { p with
    boot := { p.boot with ready := q.boot.ready, elapsed := q.boot.elapsed }
    diameter := { p.diameter with lines := q.diameter.lines }
    link := { p.link with conditions := q.link.conditions, sendList := q.link.sendList } }

theorem LineWork.trans {p q t : Part} (h : LineWork p q) (k : LineWork q t) : LineWork p t := by
  unfold LineWork at *
  rw [h] at k
  exact k

protected theorem LineWork.rfl (p : Part) : LineWork p p := rfl

theorem LineWork.of_setLine (l : Line) (u : LineUnit) (p : Part) : LineWork p (p.setLine l u) := rfl

theorem LineWork.of_raise (c : Condition) (p : Part) : LineWork p (raise c p) := rfl

theorem LineWork.lineEnabled {p q : Part} (h : LineWork p q) (l : Line) : q.lineEnabled l = p.lineEnabled l := by
  rw [h]
  rfl

theorem LineWork.outOfWindow {p q : Part} (h : LineWork p q) (l : Line) : q.outOfWindow l = p.outOfWindow l := by
  rw [h]
  rfl

section Ends
variable {p x : Part} (quiet : Quiet p) (work : LineWork p x)
include work

theorem LineWork.pending (h : p.boot.resetPending = none ∨ p.link.busOff = false) :
    x.boot.resetPending = none ∨ x.link.busOff = false := by
  rw [work]
  exact h

include quiet

/-- Past the end of an event on the lines the feed stands, no hold having come, and nothing is raised beside what the lines raised. -/
theorem LineWork.ends (b : Part) : (conclude b x).feed = p.feed ∧ (conclude b x).link.conditions = x.link.conditions
    ∧ (∀ l, (conclude b x).line l = x.line l)
    ∧ Follows { p with diameter := { p.diameter with lines := (conclude b x).diameter.lines } } (conclude b x) := by
  have pend := work.pending quiet.pending
  have holds : x.holdPasses = false :=
    (holdPasses_congr (by rw [work]) (by rw [work]) (by rw [work]) (by rw [work])).trans quiet.holds
  obtain ⟨feed, conditions⟩ := conclude_unheld b pend holds
  have fol := conclude_follows b pend
  have lines : (conclude b x).diameter.lines = x.diameter.lines := by rw [fol]
  refine ⟨feed.trans (by rw [work]), conditions, line_of_lines lines, ?_⟩
  rw [lines]
  refine Follows.trans ?_ fol
  unfold Follows
  rw [work]

end Ends

/-- Every enabled line is OK once a line has been given a supervision: that line by what it was given, the others as before. -/
theorem setLine_linesReady_iff (p : Part) (l : Line) (u : LineUnit) : (p.setLine l u).linesReady = true ↔
    (p.lineEnabled l = true → u.state = .ok) ∧ ∀ l', l' ≠ l → p.lineEnabled l' = true → (p.line l').state = .ok := by
  rw [linesReady_iff]
  refine ⟨fun h => ⟨fun on => ?_, fun l' ne on => ?_⟩, fun ⟨own, others⟩ l' on => ?_⟩
  · have state := h l on
    rwa [line_setLine_self] at state
  · have state := h l' on
    rwa [line_setLine_ne p ne] at state
  · by_cases ne : l' = l
    · subst ne
      rw [line_setLine_self]
      exact own on
    · rw [line_setLine_ne p ne]
      exact others l' ne on

/-- Every enabled line being OK, a part that is not READY becomes so at the end of the event (R80). -/
theorem conclude_boot_ready (b : Part) {p : Part} (h : p.boot.resetPending = none ∨ p.link.busOff = false)
    (off : p.boot.ready = false) (lines : p.linesReady = true) :
    (conclude b p).boot = { p.boot with ready := true, elapsed := none } := by
  have same : (holdTest p).boot = p.boot := (holdTest_feedOnly p).boot
  have lines' : (holdTest p).linesReady = true := by
    rw [holdTest_feedOnly p]
    exact lines
  rw [conclude_eq, resetInBusOff_idle h, concludeRest_eq]
  dsimp only
  rw [same, lines', off]
  rfl

/-! ### LINE_OUT_OF_WINDOW_EXPIRY, LINE_IN_WINDOW_EXPIRY -/

theorem lineFaults_work (l : Line) (k : FaultKind) (p : Part) : LineWork p (lineFaults l k p) :=
  (LineWork.of_setLine l _ p).trans (.of_raise .lineFault _)

theorem lineFaults_raises (l : Line) (k : FaultKind) (p : Part) : RaisesOnly [.lineFault] p (lineFaults l k p) :=
  (RaisesOnly.of_conditions rfl).trans (.of_raise (by simp) _)

theorem lineFaults_raised (l : Line) (k : FaultKind) (p : Part) : (lineFaults l k p).raised .lineFault = true := by
  simp [lineFaults]

theorem lineFaults_line (l : Line) (k : FaultKind) (p : Part) : (lineFaults l k p).line l = { p.line l with state := .fault k } :=
  line_setLine_self p l _

theorem lineFaults_others {l l' : Line} (ne : l' ≠ l) (k : FaultKind) (p : Part) : (lineFaults l k p).line l' = p.line l' :=
  line_setLine_ne p ne _

/-- A fault makes no part READY that was not. -/
theorem lineFaults_linesReady {l : Line} {k : FaultKind} {p : Part} (h : (lineFaults l k p).linesReady = true) :
    p.linesReady = true := by
  obtain ⟨own, others⟩ := (setLine_linesReady_iff p l { p.line l with state := .fault k }).mp h
  refine (linesReady_iff p).mpr fun l' on => ?_
  by_cases ne : l' = l
  · subst ne
    cases own on
  · exact others l' ne on

theorem lineOutExpires_faults {l : Line} {k : FaultKind} {p : Part}
    (state : (p.line l).state = .qualifying ∨ (p.line l).state = .ok) (out : p.outOfWindow l = some k) :
    lineOutExpires l p = lineFaults l k p := by
  rcases state with state | state <;> simp [lineOutExpires, state, out]

theorem lineOutExpires_idle {l : Line} {p : Part}
    (h : (p.line l).state = .disabled ∨ (∃ k, (p.line l).state = .fault k) ∨ p.outOfWindow l = none) : lineOutExpires l p = p := by
  unfold lineOutExpires
  rcases h with state | ⟨k, state⟩ | out
  · rw [state]
  · rw [state]
  · rw [out]
    rcases (p.line l).state <;> rfl

theorem lineInExpires_ok {l : Line} {p : Part}
    (state : (p.line l).state = .qualifying ∨ ∃ k, (p.line l).state = .fault k) (out : p.outOfWindow l = none) :
    lineInExpires l p = p.setLine l { p.line l with state := .ok } := by
  rcases state with state | ⟨k, state⟩ <;> simp [lineInExpires, state, out]

theorem lineInExpires_idle {l : Line} {p : Part}
    (h : (p.line l).state = .disabled ∨ (p.line l).state = .ok ∨ p.outOfWindow l ≠ none) : lineInExpires l p = p := by
  unfold lineInExpires
  rcases h with state | state | out
  · rw [state]
  · rw [state]
  · obtain ⟨k, out⟩ := Option.ne_none_iff_exists'.mp out
    rw [out]
    rcases (p.line l).state <;> rfl

/-- Settles O43: a row that finds its line elsewhere leaves the settled part; else the line's own work is `LineWork`, and READY
follows from the states of the enabled lines. -/
theorem lineExpiriesChangeTheLine : Obligations.LineExpiriesChangeTheLine := by
  intro s l hs on
  have quiet := hs.quiet on
  have out_runs : Runs (.lineOutOfWindowExpiry l) s (conclude s.part (lineOutExpires l s.part)) := runs_on rfl (perform_on on rfl)
  have in_runs : Runs (.lineInWindowExpiry l) s (conclude s.part (lineInExpires l s.part)) := runs_on rfl (perform_on on rfl)
  refine ⟨fun k state out => ?_, fun idle => ?_, fun state out => ?_, fun idle => ?_⟩
  · rw [lineOutExpires_faults state out] at out_runs
    have work := lineFaults_work l k s.part
    obtain ⟨feed, conditions, line, fol⟩ := work.ends quiet s.part
    have raised : RaisesOnly [.lineFault] (lineFaults l k s.part) (conclude s.part (lineFaults l k s.part)) :=
      .of_conditions conditions
    have boot : (conclude s.part (lineFaults l k s.part)).boot = s.part.boot := by
      refine conclude_boot (work.pending quiet.pending) ?_
      by_contra becomes
      obtain ⟨off, lines⟩ : (lineFaults l k s.part).boot.ready = false ∧ (lineFaults l k s.part).linesReady = true := by
        simpa using becomes
      have ready := quiet.ready
      rw [show s.part.boot.ready = false from off, lineFaults_linesReady lines] at ready
      cases ready
    exact ⟨_, out_runs, by rw [line, lineFaults_line], (raised .lineFault).1 (by simp) (lineFaults_raised l k s.part),
      (lineFaults_raises l k s.part).trans raised, fun l' ne => (line l').trans (lineFaults_others ne k s.part), feed, boot, fol⟩
  · rwa [lineOutExpires_idle idle, quiet.settled] at out_runs
  · rw [lineInExpires_ok state out] at in_runs
    have work : LineWork s.part (s.part.setLine l { s.part.line l with state := .ok }) := .of_setLine ..
    obtain ⟨feed, conditions, line, fol⟩ := work.ends quiet s.part
    have pend := work.pending quiet.pending
    have lines := setLine_linesReady_iff s.part l { s.part.line l with state := .ok }
    refine ⟨_, in_runs, by rw [line, line_setLine_self], fun l' ne => (line l').trans (line_setLine_ne _ ne _), feed, conditions,
      fun off others => ?_, fun waits => ?_, fol⟩
    · rw [conclude_boot_ready s.part pend off (lines.mpr ⟨fun _ => rfl, others⟩)]
      exact ⟨rfl, rfl⟩
    · refine conclude_boot pend ?_
      rcases waits with ready | ⟨l', ne, enabled, bad⟩
      · simp [ready]
      · rw [Bool.and_eq_false_iff]
        exact .inr (Bool.eq_false_iff.mpr fun all => bad ((lines.mp all).2 l' ne enabled))
  · rwa [lineInExpires_idle idle, quiet.settled] at in_runs

/-! ### STARTUP_DEADLINE -/

/-- Whether a line still waits for its qualification as the start-up deadline comes (R80). -/
def Part.misses (p : Part) (l : Line) : Prop := p.lineEnabled l = true ∧ (p.line l).state = .qualifying

/-- The kind of fault of a line that misses the deadline: that of its out-of-window reading, else the latest one, else SHORT. -/
def Part.missedKind (p : Part) (l : Line) : FaultKind := ((p.outOfWindow l) <|> (p.line l).lastOut).getD .shorted

theorem lineDeadline_misses {l : Line} {p : Part} (h : p.misses l) : lineDeadline l p = lineFaults l (p.missedKind l) p := if_pos h

theorem lineDeadline_idle {l : Line} {p : Part} (h : ¬p.misses l) : lineDeadline l p = p := if_neg h

theorem lineDeadline_work (l : Line) (p : Part) : LineWork p (lineDeadline l p) := by
  by_cases h : p.misses l
  · rw [lineDeadline_misses h]
    exact lineFaults_work l _ p
  · rw [lineDeadline_idle h]
    exact .rfl p

theorem lineDeadline_raises (l : Line) (p : Part) : RaisesOnly [.lineFault] p (lineDeadline l p) := by
  by_cases h : p.misses l
  · rw [lineDeadline_misses h]
    exact lineFaults_raises l _ p
  · rw [lineDeadline_idle h]
    exact .of_conditions rfl

theorem lineDeadline_others {l l' : Line} (ne : l' ≠ l) (p : Part) : (lineDeadline l p).line l' = p.line l' := by
  by_cases h : p.misses l
  · rw [lineDeadline_misses h, lineFaults_others ne]
  · rw [lineDeadline_idle h]

/-- The deadline of one line leaves another line where it stood with it. -/
theorem lineDeadline_keeps {l l' : Line} (ne : l' ≠ l) (p : Part) :
    ((lineDeadline l p).misses l' ↔ p.misses l') ∧ (lineDeadline l p).missedKind l' = p.missedKind l' := by
  unfold Part.misses Part.missedKind
  rw [(lineDeadline_work l p).lineEnabled, (lineDeadline_work l p).outOfWindow, lineDeadline_others ne]
  exact ⟨Iff.rfl, rfl⟩

/-- From `p` to `q` the deadline of a line has passed (R80). -/
structure DeadlineMet (l : Line) (p q : Part) : Prop where
  missed : p.misses l → q.raised .lineFault = true ∧ (q.line l).state = .fault (p.missedKind l)
  kept : ¬p.misses l → q.line l = p.line l

theorem lineDeadline_met (l : Line) (p : Part) : DeadlineMet l p (lineDeadline l p) where
  missed h := by
    rw [lineDeadline_misses h, lineFaults_line]
    exact ⟨lineFaults_raised l _ p, rfl⟩
  kept h := by rw [lineDeadline_idle h]

/-- The deadline of another line before it changes nothing for a line. -/
theorem DeadlineMet.after {l l' : Line} {p q : Part} (ne : l' ≠ l) (h : DeadlineMet l' (lineDeadline l p) q) :
    DeadlineMet l' p q := by
  obtain ⟨misses, kind⟩ := lineDeadline_keeps ne p
  obtain ⟨missed, kept⟩ := h
  rw [misses, kind] at missed
  rw [misses, lineDeadline_others ne] at kept
  exact ⟨missed, kept⟩

/-- What leaves a line and the conditions raised leaves what its deadline did. -/
theorem DeadlineMet.seen {l : Line} {p q t : Part} (h : DeadlineMet l p q) (line : t.line l = q.line l)
    (raises : RaisesOnly [.lineFault] q t) : DeadlineMet l p t where
  missed m := ⟨(raises .lineFault).1 (by simp) (h.missed m).1, by rw [line, (h.missed m).2]⟩
  kept m := by rw [line, h.kept m]

/-- The deadline of another line after it changes nothing for a line. -/
theorem DeadlineMet.before {l l' : Line} {p q : Part} (ne : l' ≠ l) (h : DeadlineMet l' p q) :
    DeadlineMet l' p (lineDeadline l q) := h.seen (lineDeadline_others ne q) (lineDeadline_raises l q)

theorem deadlinePasses_work (p : Part) : LineWork p (deadlinePasses p) :=
  (((lineDeadline_work .ka p).trans (lineDeadline_work .kb _)).trans (lineDeadline_work .rl _)).trans rfl

theorem deadlinePasses_raises (p : Part) : RaisesOnly [.lineFault] p (deadlinePasses p) :=
  (((lineDeadline_raises .ka p).trans (lineDeadline_raises .kb _)).trans (lineDeadline_raises .rl _)).trans (.of_conditions rfl)

theorem deadlinePasses_met (l : Line) (p : Part) : DeadlineMet l p (deadlinePasses p) := by
  have lines : DeadlineMet l p (lineDeadline .rl (lineDeadline .kb (lineDeadline .ka p))) := by
    cases l with
    | ka => exact .before (by decide) (.before (by decide) (lineDeadline_met .ka p))
    | kb => exact .before (by decide) (.after (by decide) (lineDeadline_met .kb _))
    | rl => exact .after (by decide) (.after (by decide) (lineDeadline_met .rl _))
  exact lines.seen rfl (.of_conditions rfl)

/-- Settles O6: the deadlines of the three lines, one after another, are `LineWork` and do not meddle with each other
(`deadlinePasses_met`); READY needs no more than the deadline. -/
theorem startupDeadlineEntersReady : Obligations.StartupDeadlineEntersReady := by
  intro s hs on
  have quiet := hs.quiet on
  refine ⟨fun ready => runs_on rfl (perform_off (by simp [ready])), fun off => ?_⟩
  have runs : Runs .startupDeadline s (conclude s.part (deadlinePasses s.part)) := runs_on rfl (perform_on on (by simp [off]))
  have work := deadlinePasses_work s.part
  obtain ⟨feed, conditions, line, fol⟩ := work.ends quiet s.part
  have boot : (conclude s.part (deadlinePasses s.part)).boot = (deadlinePasses s.part).boot :=
    conclude_boot (work.pending quiet.pending) rfl
  have raised : RaisesOnly [.lineFault] (deadlinePasses s.part) (conclude s.part (deadlinePasses s.part)) :=
    .of_conditions conditions
  refine ⟨_, runs, fol, by rw [boot]; rfl, feed, (deadlinePasses_raises s.part).trans raised, fun l => ?_⟩
  have met := (deadlinePasses_met l s.part).seen (line l) raised
  refine ⟨fun enabled state => ?_, fun kept => met.kept fun ⟨enabled, state⟩ => ?_⟩
  · obtain ⟨fault, kind⟩ := met.missed ⟨enabled, state⟩
    refine ⟨fault, kind.trans (congrArg LineState.fault ?_)⟩
    unfold Part.missedKind
    rcases s.part.outOfWindow l with _ | k <;> rcases (s.part.line l).lastOut with _ | k' <;> rfl
  · rcases kept with disabled | other
    · rw [enabled] at disabled
      cases disabled
    · exact other state

end Sys2Proof.Machine
end

section
namespace Sys2Proof.Machine

/-! ### Samples -/

theorem outOfWindow_isNone (p : Part) (l : Line) :
    (p.outOfWindow l).isNone = true ↔ p.lineLow l ≤ p.reading l ∧ p.reading l ≤ p.lineHigh l := by
  unfold Part.outOfWindow
  split_ifs with low high
  · simp [low]
  · simp [high]
  · simp only [Option.isNone_none, true_iff]
    omega

/-- The three conditions of a usable line (R81). -/
theorem usable_iff (p : Part) (l : Line) : p.usable l = true ↔ p.lineEnabled l = true ∧ (p.line l).state = .ok
    ∧ p.lineLow l ≤ p.reading l ∧ p.reading l ≤ p.lineHigh l := by
  unfold Part.usable
  rw [Bool.and_eq_true, Bool.and_eq_true, outOfWindow_isNone, beq_iff_eq, and_assoc]

/-- Four times the over-bark diameter, by the lines that are usable (R83). -/
theorem overBark4_eq (p : Part) : p.overBark4 =
    match p.usable .ka, p.usable .kb, p.usable .rl with
    | true, true, true => some ((p.estimate .ka + p.estimate .kb) + 2 * p.estimate .rl)
    | true, false, true => some (2 * p.estimate .ka + 2 * p.estimate .rl)
    | false, true, true => some (2 * p.estimate .kb + 2 * p.estimate .rl)
    | false, false, true => some (4 * p.estimate .rl)
    | true, true, false => some (2 * (p.estimate .ka + p.estimate .kb))
    | true, false, false => some (2 * (2 * p.estimate .ka))
    | false, true, false => some (2 * (2 * p.estimate .kb))
    | false, false, false => none := by
  unfold Part.overBark4 Part.knifeTwice Part.rlEstimate
  rcases p.usable .ka <;> rcases p.usable .kb <;> rcases p.usable .rl <;> rfl

theorem takeSample_unusable {p : Part} (h : p.overBark4 = none) : takeSample p = p := by
  unfold takeSample
  rw [h]

theorem takeSample_usable {p : Part} {o : Int} {s : Species} (h : p.overBark4 = some o) (hs : p.inUse = some s) :
    takeSample p = { p with diameter := { p.diameter with samples := pushSample p.diameter.samples (sampleOf s o) } } := by
  unfold takeSample
  rw [h, hs]

/-- The sample is the exact quotient's floor, 0 for a negative one (R84). -/
theorem sampleOf_spec (s : Species) (over4 : Int) :
    let x := over4 * (1000000 + s.diamGain) + (s.diamOffset - s.bark) * 4000000000
    (x < 0 → sampleOf s over4 = 0)
      ∧ (0 ≤ x → (sampleOf s over4 : Int) * 4000000000 ≤ x ∧ x < ((sampleOf s over4 : Int) + 1) * 4000000000) := by
  unfold sampleOf
  generalize over4 * (1000000 + s.diamGain) + (s.diamOffset - s.bark) * 4000000000 = x
  dsimp only
  omega

theorem currentDiameter_mean {p : Part} (h : p.diameter.samples ≠ []) :
    p.currentDiameter = some (p.diameter.samples.sum / p.diameter.samples.length) := by
  unfold Part.currentDiameter
  rcases e : p.diameter.samples with _ | ⟨x, xs⟩
  · exact absurd e h
  · rfl

/-- Settles O44: by the lines that are usable (`overBark4_eq`), then the quotient of a sample (`sampleOf_spec`). -/
theorem samplesCombineUsableLines : Obligations.SamplesCombineUsableLines := by
  intro p sp use
  refine ⟨usable_iff p, fun _ => rfl, fun ka kb rl => takeSample_unusable ?_, fun over4 combined => ?_, fun empty => ?_,
    currentDiameter_mean⟩
  · rw [overBark4_eq, ka, kb, rl]
  · have combines : p.overBark4 = some over4 := by
      rw [overBark4_eq]
      rcases combined with ⟨ka, kb, rl, rfl⟩ | ⟨ka, kb, rl, rfl⟩ | ⟨ka, kb, rl, rfl⟩ | ⟨ka, kb, rl, rfl⟩ | ⟨ka, kb, rl, rfl⟩
        | ⟨ka, kb, rl, rfl⟩ | ⟨ka, kb, rl, rfl⟩ <;> rw [ka, kb, rl]
      all_goals
        refine congrArg some ?_
        omega
    exact ⟨sampleOf sp over4, takeSample_usable combines use, sampleOf_spec sp over4⟩
  · unfold Part.currentDiameter
    rw [empty]

end Sys2Proof.Machine
end

section
namespace Sys2Proof.Machine

/-! ### The minimum-diameter watch at the end of an event -/

section HoldAtEnd
variable (b : Part) {p x : Part} (pend : x.boot.resetPending = none ∨ x.link.busOff = false)
include pend

theorem conclude_hold : (conclude b x).diameter.hold = (x.diameter.hold || x.holdPasses) := by
  rw [(conclude_sameFed b pend).hold, holdTest_hold]

theorem conclude_thin : (conclude b x).thin = x.thin := (conclude_sameFed b pend).thin.trans (holdTest_feedAndHold x).thin

theorem conclude_diamReject : (conclude b x).raised .diamReject = (x.raised .diamReject || x.holdPasses) := by
  rw [(conclude_beside b pend).raised _ (by decide), holdTest_raised _ (by decide), decide_eq_true rfl, Bool.and_true]

/-- A hold that has not come leaves the feed (05 R120). -/
theorem conclude_feed_of_hold (h : (conclude b x).diameter.hold = x.diameter.hold) : (conclude b x).feed = x.feed := by
  refine (conclude_unheld b pend (Bool.eq_false_iff.mpr fun passes => ?_)).1
  rw [conclude_hold b pend, passes, ((holdPasses_iff x).mp passes).2.2] at h
  cases h

/-- The end of every event makes the test of the minimum-diameter watch (04 R92). -/
theorem conclude_holdTested (before : x.raised .diamReject = p.raised .diamReject) :
    HoldTested x.diameter.hold p (conclude b x) := by
  have same := conclude_sameFed b pend
  have hold := conclude_hold b pend
  have thin := conclude_thin b pend
  refine ⟨fun free isThin => ?_, fun free held => ?_, fun held => by rw [hold, held, Bool.true_or], fun kept => ?_⟩
  · rw [thin] at isThin
    rcases passes : x.holdPasses
    · rw [same.feed, holdTest_idle passes, ← not_or]
      intro feeds
      rw [(holdPasses_iff x).mpr ⟨isThin, feeds, free⟩] at passes
      cases passes
    · rw [same.feed, holdTest_state passes]
      obtain ⟨still, -⟩ := decision_held (p := { x with diameter := { x.diameter with hold := true } }) rfl
      constructor <;> intro state <;> rw [state] at still <;> cases still
  · have passes : x.holdPasses = true := by rwa [hold, free, Bool.false_or] at held
    obtain ⟨isThin, feeds, -⟩ := (holdPasses_iff x).mp passes
    refine ⟨thin.trans isThin, by rw [conclude_diamReject b pend, passes, Bool.or_true], ?_⟩
    rw [same.feed, same.decision, holdTest, if_pos passes]
    exact holdComes_decides (feeds.imp_right .inl)
  · have passes : x.holdPasses = false := by
      refine Bool.eq_false_iff.mpr fun passes => ?_
      rw [hold, passes, ((holdPasses_iff x).mp passes).2.2] at kept
      cases kept
    rw [conclude_diamReject b pend, passes, Bool.or_false, before]

end HoldAtEnd

/-! ### GRIP_SAMPLE_EXPIRY -/

/-- The samples that the end of the grip wait leaves (R82). -/
def Part.gripSamples (p : Part) : List Nat :=
  if p.hasActive = true ∧ p.diameter.samples = [] then (takeSample p).diameter.samples else p.diameter.samples

/-- The part at the end of its grip wait, its sample taken. -/
def Part.gripSampled (p : Part) : Part :=
  { p with diameter := { p.diameter with gripWait := none, samples := p.gripSamples } }

/-- A sample has nothing to do with the grip wait. -/
theorem takeSample_gripWait (p : Part) (t : Option Nat) :
    takeSample { p with diameter := { p.diameter with gripWait := t } } =
      { p with diameter := { p.diameter with gripWait := t, samples := (takeSample p).diameter.samples } } := by
  unfold takeSample
  rw [show Part.overBark4 { p with diameter := { p.diameter with gripWait := t } } = p.overBark4 from rfl,
    show Part.inUse { p with diameter := { p.diameter with gripWait := t } } = p.inUse from rfl]
  split <;> rfl

theorem gripSample_waiting {p : Part} (h : p.diameter.gripWait ≠ none) : gripSample p = p.gripSampled := by
  unfold gripSample Part.gripSampled Part.gripSamples
  rw [if_pos (Option.isSome_iff_ne_none.mpr h)]
  dsimp only
  by_cases due : p.hasActive = true ∧ p.diameter.samples = []
  · rw [if_pos due, if_pos, takeSample_gripWait]
    exact Bool.and_eq_true_iff.mpr ⟨due.1, List.isEmpty_iff.mpr due.2⟩
  · rw [if_neg due, if_neg]
    exact fun taken => due ⟨(Bool.and_eq_true_iff.mp taken).1, List.isEmpty_iff.mp (Bool.and_eq_true_iff.mp taken).2⟩

/-- Settles O45: the row ends the wait and adds the sample (`gripSample_waiting`); what the watch over the minimum diameter makes of
it is `conclude_holdTested`. -/
theorem gripSampleIsTakenOnce : Obligations.GripSampleIsTakenOnce := by
  intro s hs on
  have quiet := hs.quiet on
  refine ⟨fun idle => runs_on rfl (perform_off (by simp [idle])), fun waits => ?_⟩
  have runs : Runs .gripSampleExpiry s (conclude s.part s.part.gripSampled) :=
    runs_on rfl ((perform_on on (Option.isSome_iff_ne_none.mpr waits)).trans (by rw [gripSample_waiting waits]))
  have pend : s.part.gripSampled.boot.resetPending = none ∨ s.part.gripSampled.link.busOff = false := quiet.pending
  have fol := conclude_follows s.part pend
  have samples : (conclude s.part s.part.gripSampled).diameter.samples = s.part.gripSamples := by
    rw [fol]
    rfl
  refine ⟨_, runs, by rw [fol]; rfl, fun active empty => ?_, fun taken => ?_, conclude_holdTested s.part pend rfl,
    fun free thin feeds => ?_, conclude_feed_of_hold s.part pend, conclude_raises s.part pend, ?_⟩
  · rw [samples, Part.gripSamples, if_pos ⟨active, empty⟩]
  · rw [samples, Part.gripSamples, if_neg]
    rintro ⟨active, empty⟩
    rcases taken with idle | sampled
    · rw [active] at idle
      cases idle
    · exact sampled empty
  · rw [conclude_thin s.part pend] at thin
    rw [conclude_hold s.part pend, (holdPasses_iff s.part.gripSampled).mpr ⟨thin, feeds, free⟩, Bool.or_true]
  · rw [samples]
    exact fol

end Sys2Proof.Machine
end

section
namespace Sys2Proof.Machine

/-! ### The effect of a control value (05 R96) -/

/-- The part with the value set, a request and a direct cut withdrawn. -/
def Part.valued (p : Part) (v : FeedValue) : Part := { p with feed := { p.feed.withdraw with value := v } }

/-- The part with the value RUN, its seek-spent and stall-out marks cleared. -/
def Part.resumed (p : Part) : Part := { p with feed := { p.feed with value := .run, seekSpent := false, stallOut := false } }

theorem feedSetValue_taken {v : FeedValue} {p : Part} (hv : v ≠ .run) (taken : p.feed.cutTaken = true) :
    feedSetValue v p = p.valued v := by
  have same := (withdraw_cutTaken p.feed v).trans taken
  cases v with
  | run => exact absurd rfl hv
  | idle => exact if_pos same
  | grip => exact if_pos same

theorem feedSetValue_stops {v : FeedValue} {p : Part} (hv : v ≠ .run) (free : p.feed.cutTaken = false) :
    feedSetValue v p = feedDecide (p.valued v) := by
  have same := Bool.eq_false_iff.mp ((withdraw_cutTaken p.feed v).trans free)
  cases v with
  | run => exact absurd rfl hv
  | idle => exact if_neg same
  | grip => exact if_neg same

theorem feedSetValue_restarts {p : Part} (h : p.feed.state = .idle ∨ p.feed.state = .grip ∨ p.feed.state = .stalled) :
    feedSetValue .run p = feedDecide p.resumed := by
  rcases h with h | h | h <;> simp [feedSetValue, Part.resumed, h]

theorem feedSetValue_goesOn {p : Part} (idle : p.feed.state ≠ .idle) (grip : p.feed.state ≠ .grip)
    (stalled : p.feed.state ≠ .stalled) : feedSetValue .run p = p.resumed := by
  unfold feedSetValue Part.resumed
  dsimp only
  split
  next state => exact absurd state idle
  next state => exact absurd state grip
  next state => exact absurd state stalled
  · rfl

/-- With a value other than RUN the decision is of rows 3 and 4 of the table (05 R98). -/
theorem valued_decision {v : FeedValue} {p : Part} (hv : v ≠ .run) (active : p.hasActive = true)
    (works : p.monitor.profile.works = true) : (p.valued v).decision =
      if p.monitor.takeover.inForce then .manual else if v = .grip then .grip else .idle := by
  rw [hasActive_isSome] at active
  obtain ⟨r, hr⟩ := Option.isSome_iff_exists.mp active
  have hr' : (p.valued v).activeRecord = some r := hr
  have works' : ¬(p.valued v).monitor.profile.works = false := Bool.not_eq_false _ ▸ works
  unfold Part.decision
  rw [hr']
  cases v with
  | run => exact absurd rfl hv
  | idle => exact if_neg works'
  | grip => exact if_neg works'

/-- From `p` to `x` the feed has taken the value IDLE or GRIP (05 R96). -/
structure FeedStops (v : FeedValue) (p x : Part) : Prop where
  link : x.link = p.link
  pendingDirect : x.feed.pendingDirect = false
  held : x.feed.held = p.feed.held
  corrections : x.feed.corrections = p.feed.corrections
  holds : x.holdPasses = false
  decided : p.feed.cutTaken = false → x.feed.unasked
    ∧ x.feed.state = if p.monitor.takeover.inForce then .manual else if v = .grip then .grip else .idle
  taken : p.feed.cutTaken = true → x.feed.state = .cutWait ∧ x.feed.request = p.feed.request

theorem feedSetValue_feedStops {v : FeedValue} {p : Part} (hv : v ≠ .run) (active : p.hasActive = true)
    (works : p.monitor.profile.works = true) : FeedStops v p (feedSetValue v p) := by
  rcases cut : p.feed.cutTaken
  · rw [feedSetValue_stops hv cut]
    have decision := valued_decision hv active works
    have rests : (p.valued v).decision = .manual ∨ (p.valued v).decision = .grip ∨ (p.valued v).decision = .idle := by
      rw [decision]
      split_ifs <;> simp
    exact {
      link := feedDecide_link (by rcases rests with h | h | h <;> simp [h])
      pendingDirect := feedDecide_pendingDirect _
      held := feedDecide_held _
      corrections := feedDecide_corrections _
      holds := holdPasses_of_state (feedDecide_state _) (by rcases rests with h | h | h <;> simp [h])
        (by rcases rests with h | h | h <;> simp [h])
      decided := fun _ => ⟨feedDecide_unasked _, (feedDecide_state _).trans decision⟩
      taken := fun h => by rw [cut] at h; cases h }
  · rw [feedSetValue_taken hv cut]
    obtain ⟨state, k, request⟩ := p.feed.cutTaken_iff.mp cut
    exact {
      link := rfl
      pendingDirect := rfl
      held := rfl
      corrections := rfl
      holds := holdPasses_of_state (p := p.valued v) state (by simp) (by simp)
      decided := fun h => by rw [cut] at h; cases h
      taken := fun _ => ⟨state, by simp [Part.valued, Feed.withdraw, request]⟩ }

/-- From `p` to `x` the feed has taken the value RUN (05 R96). -/
structure FeedRuns (p x : Part) : Prop where
  link : x.link = p.link
  held : x.feed.held = p.feed.held
  corrections : x.feed.corrections = p.feed.corrections
  seekSpent : x.feed.seekSpent = false
  stallOut : x.feed.stallOut = false
  restarts : p.feed.state = .idle ∨ p.feed.state = .grip ∨ p.feed.state = .stalled → x.feed.state = x.decision
  goesOn : p.feed.state ≠ .idle → p.feed.state ≠ .grip → p.feed.state ≠ .stalled → x.feed.state = p.feed.state

theorem feedSetValue_feedRuns (p : Part) : FeedRuns p (feedSetValue .run p) := by
  by_cases rests : p.feed.state = .idle ∨ p.feed.state = .grip ∨ p.feed.state = .stalled
  · rw [feedSetValue_restarts rests]
    exact {
      link := feedDecide_link fun stalled => Bool.false_ne_true (decision_stalled (p := p.resumed) stalled)
      held := feedDecide_held _
      corrections := feedDecide_corrections _
      seekSpent := feedDecide_seekSpent _
      stallOut := feedDecide_marks _
      restarts := fun _ => decides_state _
      goesOn := fun idle grip stalled => absurd rests (by simp [idle, grip, stalled]) }
  · obtain ⟨idle, grip, stalled⟩ := by simpa only [not_or] using rests
    rw [feedSetValue_goesOn idle grip stalled]
    exact {
      link := rfl
      held := rfl
      corrections := rfl
      seekSpent := rfl
      stallOut := rfl
      restarts := fun h => absurd h rests
      goesOn := fun _ _ _ => rfl }

/-! ### The hold test of a feed without the stall-out mark -/

theorem holdTest_stallOut (p : Part) : (holdTest p).feed.stallOut = p.feed.stallOut := by
  unfold holdTest
  split
  · unfold holdComes feedHold
    split
    all_goals first
      | exact feedDecide_marks _
      | rfl
  · rfl

/-- A feed that is not stalled out raises nothing of its own at a hold. -/
theorem holdTest_raises_unstalled {p : Part} (h : p.feed.stallOut = false) : RaisesOnly [.diamReject] p (holdTest p) := by
  rcases passes : p.holdPasses
  · rw [holdTest_idle passes]
    exact .of_conditions rfl
  · set x : Part := raise .diamReject { p with diameter := { p.diameter with hold := true } } with hx
    have feeds : x.feed.state = .feed ∨ x.feed.state = .approach ∨ ∃ ph, x.feed.state = .recover ph :=
      ((holdPasses_iff p).mp passes).2.1.imp_right .inl
    have link : (feedDecide x).link = x.link :=
      feedDecide_link fun stalled => Bool.false_ne_true (h.symm.trans (decision_stalled (p := x) stalled))
    have comes : holdTest p = feedDecide x := by rw [holdTest, if_pos passes, holdComes, feedHold_working feeds]
    rw [comes]
    have raises : RaisesOnly [.diamReject] p x := (RaisesOnly.of_conditions rfl).trans (.of_raise (by simp) _)
    exact raises.trans (.of_conditions (by rw [link]))

theorem conclude_raises_unstalled (b : Part) {p : Part} (pend : p.boot.resetPending = none ∨ p.link.busOff = false)
    (h : p.feed.stallOut = false) : RaisesOnly [.diamReject] p (conclude b p) := by
  rw [conclude_eq, resetInBusOff_idle pend, concludeRest_eq]
  exact (holdTest_raises_unstalled h).trans (.of_conditions rfl)

/-! ### SET FEED -/

/-- The part that a SET FEED of a value leaves to the end of the event. -/
def Part.feedSent (p : Part) (tag : Byte) (rest : List (List Byte)) (v : FeedValue) : Part :=
  answered p.link.sendList (okAnswer 0x05 tag []) (feedSetValue v (p.handed rest))

/-- A granted SET FEED sets its value, at work on a stem (05 R96). -/
theorem setFeed_granted {s : State} {tag : Byte} {args : List Byte} {rest : List (List Byte)} {v : FeedValue}
    (h : s.part.granted 0x05 tag args rest) (hv : FeedValue.ofCode (readU8 args 0) = some v) :
    let q := conclude s.part (s.part.feedSent tag rest v)
    (Runs .setFeed s q ∧ s.part.replies q (okAnswer 0x05 tag []) rest)
      ∧ s.part.monitor.profile.works = true ∧ s.part.hasActive = true := by
  have tests : firstFailing [(decide (2 < readU8 args 0), AnswerCode.badArgument), (!s.part.monitor.profile.works, .wrongState),
      (!s.part.hasActive, .noSuchStem)] = none := h.2.2
  obtain ⟨-, works, active, -⟩ := by simpa only [firstFailing_none, Bool.not_eq_false'] using tests
  have handled : doSetFeed args (s.part.handed rest) = accept [] (feedSetValue v (s.part.handed rest)) := by
    unfold doSetFeed
    rw [hv]
    dsimp only
    exact (if_neg (Bool.not_eq_false _ ▸ works)).trans (if_neg (Bool.not_eq_false _ ▸ active))
  exact ⟨granted_accepts h (by decide) (by decide) handled, works, active⟩

section FeedSent
variable {p : Part} (quiet : Quiet p) (tag : Byte) (rest : List (List Byte)) (v : FeedValue)
include quiet

theorem Quiet.feedSent_pending : (p.feedSent tag rest v).boot.resetPending = none ∨ (p.feedSent tag rest v).link.busOff = false := by
  have only := feedSetValue_feedOnly v (p.handed rest)
  rw [Part.feedSent, answered_boot, answered_link_busOff, only.boot, only.busOff]
  exact quiet.pending

theorem feedSent_follows : Follows (p.took rest) (conclude p (p.feedSent tag rest v)) := by
  have handed : Follows (p.took rest) (p.handed rest) := rfl
  have sent : Follows (p.handed rest) (p.feedSent tag rest v) :=
    (feedSetValue_feedOnly v (p.handed rest)).follows.trans (.of_answered _ _ _)
  exact (handed.trans sent).trans (conclude_follows p (quiet.feedSent_pending tag rest v))

/-- Where the value itself has raised nothing, what the end of the event tests is the minimum diameter. -/
theorem feedSent_holdTested (link : (feedSetValue v (p.handed rest)).link = (p.handed rest).link) :
    HoldTested p.diameter.hold p (conclude p (p.feedSent tag rest v)) := by
  have hold : (p.feedSent tag rest v).diameter.hold = p.diameter.hold := by
    rw [Part.feedSent, answered_diameter, (feedSetValue_feedOnly v (p.handed rest)).diameter]
    rfl
  rw [← hold]
  refine conclude_holdTested p (quiet.feedSent_pending tag rest v) ?_
  unfold Part.raised Part.feedSent
  rw [answered_link_conditions, link]
  rfl

end FeedSent

/-- Settles O14: IDLE and GRIP by `FeedStops`, RUN by `FeedRuns`; the end of the event may only bring the hold. -/
theorem setFeedSetsTheValue : Obligations.SetFeedSetsTheValue := by
  intro s tag args rest v hs h hv
  have quiet := hs.quiet h.1.1.1
  obtain ⟨⟨run, replies⟩, works, active⟩ := setFeed_granted h hv
  have pend := quiet.feedSent_pending tag rest v
  have feed := conclude_feed s.part pend
  have value : (conclude s.part (s.part.feedSent tag rest v)).feed.value = v := by
    rw [feed, holdTest_value]
    exact feedSetValue_value v _
  by_cases hr : v = .run
  · subst hr
    have runs := feedSetValue_feedRuns (s.part.handed rest)
    have raised : RaisesOnly [.diamReject] s.part (s.part.feedSent tag rest .run) :=
      .of_conditions (by rw [Part.feedSent, answered_link_conditions, runs.link]; rfl)
    refine ⟨_, run, replies, feedSent_follows quiet tag rest _, value, ?_, ?_, fun ne => absurd rfl ne, fun ne => absurd rfl ne,
      fun _ => ⟨?_, ?_, fun rests => ?_, fun idle grip stalled => ?_⟩, feedSent_holdTested quiet tag rest _ runs.link,
      raised.trans (conclude_raises_unstalled s.part pend runs.stallOut)⟩
    · rw [feed, holdTest_held]
      exact runs.held
    · rw [feed, holdTest_corrections]
      exact runs.corrections
    · rw [feed, holdTest_seekSpent]
      exact runs.seekSpent
    · rw [feed, holdTest_stallOut]
      exact runs.stallOut
    · exact conclude_decides s.part pend (runs.restarts rests)
    · have state : (s.part.feedSent tag rest .run).feed.state = s.part.feed.state := runs.goesOn idle grip stalled
      have unit := (feedSetValue_feedOnly .run (s.part.handed rest)).diameter
      have same : (s.part.feedSent tag rest .run).diameter = s.part.diameter := unit
      have holds : (s.part.feedSent tag rest .run).holdPasses = false :=
        (holdPasses_congr (by rw [same]) (by rw [same]) (by rw [same]) state).trans quiet.holds
      rw [(conclude_unheld s.part pend holds).1, state]
  · have stops := feedSetValue_feedStops (p := s.part.handed rest) hr active works
    have unheld : (s.part.feedSent tag rest v).holdPasses = false := stops.holds
    obtain ⟨same, conditions⟩ := conclude_unheld s.part pend unheld
    have raised : RaisesOnly [.diamReject] s.part (s.part.feedSent tag rest v) :=
      .of_conditions (by rw [Part.feedSent, answered_link_conditions, stops.link]; rfl)
    refine ⟨_, run, replies, feedSent_follows quiet tag rest v, value, ?_, ?_, fun _ free => ?_, fun _ taken => ?_,
      fun e => absurd e hr, feedSent_holdTested quiet tag rest v stops.link, raised.trans (.of_conditions conditions)⟩
    · rw [same]
      exact stops.held
    · rw [same]
      exact stops.corrections
    · rw [same]
      exact ⟨stops.pendingDirect, stops.decided free⟩
    · rw [same]
      exact ⟨stops.pendingDirect, stops.taken taken⟩

end Sys2Proof.Machine
end

section
namespace Sys2Proof.Machine

/-! ### Timers that have run their limit (log 3, log 5) -/

theorem ran_iff (timer : Option Nat) (limit : Int) : ran timer limit = true ↔ reached timer limit := by
  cases timer <;> simp [ran, reached]

theorem reached_release_iff (t : Takeover) (limit : Int) :
    reached t.timer limit ↔ ∃ n, t = .snooped n ∧ limit ≤ (n : Int) := by
  cases t <;> simp [reached, Takeover.timer]

theorem ran_refresh_iff (p : Part) : (p.sendsValve && ran p.link.refresh (p.setting 35)) = true ↔ p.hasRun .valveRefreshExpiry := by
  rw [Bool.and_eq_true, ran_iff]
  rfl

theorem dueWhen_eq_none {due : Bool} {c : Instr} : dueWhen due c = none ↔ ¬due = true := by
  cases due <;> simp [dueWhen]

/-- What the part offers to take by itself is the expiry of a timer that has run its limit. -/
def Part.OnTime (p : Part) (o : Option Instr) : Prop := ∀ c, o = some c → p.hasRun c

section OnTime
variable {p : Part}

theorem Part.OnTime.orElse {o o' : Option Instr} (h : p.OnTime o) (k : p.OnTime o') : p.OnTime (o <|> o') := fun c e =>
  ((Option.orElse_eq_some o o' c).mp e).elim (h c) fun e' => k c e'.2

theorem Part.OnTime.of_due {due : Bool} {c : Instr} (h : due = true → p.hasRun c) : p.OnTime (dueWhen due c) := fun c' e => by
  cases due with
  | false => cases e
  | true =>
    obtain rfl := Option.some.inj e
    exact h rfl

end OnTime

/-- A line's reading is out of window in a state that 20 ms of it end (R78). -/
def Part.strays (p : Part) (l : Line) : Prop :=
  ((p.line l).state = .qualifying ∨ (p.line l).state = .ok) ∧ p.outOfWindow l ≠ none

/-- A line's reading is in window in a state that 200 ms of it end (R78). -/
def Part.steadies (p : Part) (l : Line) : Prop :=
  ((p.line l).state = .qualifying ∨ ∃ k, (p.line l).state = .fault k) ∧ p.outOfWindow l = none

section LineDue
variable {p : Part} {l : Line}

theorem lineDue_strays (h : p.strays l) : p.lineDue l = dueWhen (ran (p.line l).run 20) (.lineOutOfWindowExpiry l) := by
  obtain ⟨state, out⟩ := h
  obtain ⟨k, out⟩ := Option.ne_none_iff_exists'.mp out
  unfold Part.lineDue dueWhen
  rcases state with state | state <;> rw [state, out]

theorem lineDue_steadies (h : p.steadies l) : p.lineDue l = dueWhen (ran (p.line l).run 200) (.lineInWindowExpiry l) := by
  obtain ⟨state, out⟩ := h
  unfold Part.lineDue dueWhen
  rcases state with state | ⟨k, state⟩ <;> rw [state, out]

theorem lineDue_rests (strays : ¬p.strays l) (steadies : ¬p.steadies l) : p.lineDue l = none := by
  unfold Part.strays Part.steadies at *
  unfold Part.lineDue
  rcases state : (p.line l).state with _ | _ | _ | k <;> rcases out : p.outOfWindow l with _ | k' <;>
    simp [state, out] at strays steadies ⊢

theorem lineDue_onTime (p : Part) (l : Line) : p.OnTime (p.lineDue l) := by
  by_cases strays : p.strays l
  · rw [lineDue_strays strays]
    exact .of_due fun run => ⟨strays.1, strays.2, (ran_iff _ _).mp run⟩
  · by_cases steadies : p.steadies l
    · rw [lineDue_steadies steadies]
      exact .of_due fun run => ⟨steadies.1, steadies.2, (ran_iff _ _).mp run⟩
    · rw [lineDue_rests strays steadies]
      exact fun c e => nomatch e

/-- A line that is not due has no timer that has run. -/
theorem lineDue_none (h : p.lineDue l = none) :
    ¬p.hasRun (.lineOutOfWindowExpiry l) ∧ ¬p.hasRun (.lineInWindowExpiry l) := by
  refine ⟨fun ⟨state, out, run⟩ => ?_, fun ⟨state, out, run⟩ => ?_⟩
  · rw [lineDue_strays ⟨state, out⟩, dueWhen_eq_none] at h
    exact h ((ran_iff _ _).mpr run)
  · rw [lineDue_steadies ⟨state, out⟩, dueWhen_eq_none] at h
    exact h ((ran_iff _ _).mpr run)

end LineDue

theorem ownExpiry_onTime (p : Part) : p.OnTime p.ownExpiry :=
  have timer {t : Option Nat} {limit : Int} : ran t limit = true → reached t limit := (ran_iff t limit).mp
  .orElse (.of_due timer) <| .orElse (lineDue_onTime p .ka) <| .orElse (lineDue_onTime p .kb) <| .orElse (lineDue_onTime p .rl) <|
  .orElse (.of_due timer) <| .orElse (.of_due timer) <| .orElse (.of_due timer) <| .orElse (.of_due timer) <|
  .orElse (.of_due timer) <| .orElse (.of_due timer) <| .orElse (.of_due timer) <|
  .orElse (.of_due fun run => (reached_release_iff _ _).mp (timer run)) <| .orElse (.of_due (ran_refresh_iff p).mp) (.of_due timer)

/-- With no expiry on offer no timer has run its limit. -/
theorem ownExpiry_none {p : Part} (h : p.ownExpiry = none) (c : Instr) : ¬p.hasRun c := by
  unfold Part.ownExpiry at h
  simp only [Option.orElse_eq_none, dueWhen_eq_none, ran_iff, reached_release_iff, ran_refresh_iff] at h
  obtain ⟨startup, ka, kb, rl, grip, drop, settle, stall, cut, back, expectation, release, refresh, store⟩ := h
  have line (l : Line) : p.lineDue l = none := by cases l <;> assumption
  cases c with
  | startupDeadline => exact startup
  | lineOutOfWindowExpiry l => exact (lineDue_none (line l)).1
  | lineInWindowExpiry l => exact (lineDue_none (line l)).2
  | gripSampleExpiry => exact grip
  | dropTimerExpiry => exact drop
  | settleTimerExpiry => exact settle
  | stallTimerExpiry => exact stall
  | cutTimerExpiry => exact cut
  | returnTimerExpiry => exact back
  | advanceExpectationExpiry => exact expectation
  | takeoverReleaseExpiry => exact release
  | valveRefreshExpiry => exact refresh
  | storeCompletion _ => exact store
  | _ => exact id

/-! ### The part's own command -/

theorem step_own {p : Part} {c : Instr} (h : p.own = some c) :
    step { part := p, pending := [] } = exec c { part := p, pending := [] } := by
  simp [step, idle, h]

theorem step_millisecond {p : Part} (h : p.own = none) :
    step { part := p, pending := [] } = .next { part := millisecond p, pending := [] } := by
  simp [step, idle, h]

theorem own_of_request {p : Part} {c : Instr} (on : p.powered = true) (h : p.ownRequest = some c) : p.own = some c := by
  simp [Part.own, on, h]

theorem own_of_idleLink {p : Part} (on : p.powered = true)
    (h : p.boot.resetPending ≠ none ∨ 16 ≤ p.link.sendList.length ∨ p.link.requests = []) : p.own = p.ownExpiry := by
  have silent : p.ownRequest = none := by
    unfold Part.ownRequest Part.takesRequests
    rcases h with pending | full | empty
    · rw [Option.isNone_eq_false_iff.mpr (Option.isSome_iff_ne_none.mpr pending)]
      rfl
    · rw [decide_eq_false (by omega), Bool.and_false]
      rfl
    · rw [empty]
      split <;> rfl
  simp [Part.own, on, silent]

theorem takesRequests_of {p : Part} (pending : p.boot.resetPending = none) (short : p.link.sendList.length < 16) :
    p.takesRequests = true := by
  simp [Part.takesRequests, pending, short]

theorem ownRequest_heads {p : Part} {code tag : Byte} {args : List Byte} {rest : List (List Byte)}
    (h : p.heads code tag args rest) : p.ownRequest = some (requestRow code) := by
  obtain ⟨-, pending, short, requests⟩ := h
  simp [Part.ownRequest, takesRequests_of pending short, requests]

theorem ownRequest_short {p : Part} {bs : List Byte} {rest : List (List Byte)} (takes : p.takesRequests = true)
    (requests : p.link.requests = bs :: rest) (short : bs.length < 2) : p.ownRequest = some .badRequest := by
  match bs, short with
  | [], _ => simp [Part.ownRequest, takes, requests]
  | [_], _ => simp [Part.ownRequest, takes, requests]

/-! ### A millisecond -/

theorem ticked_line_eq (p : Part) (l : Line) : p.ticked.line l = (p.line l).tick := Vector.getElem_map ..

/-- Settles O2: the head request or an expiry is the part's own command (`ownExpiry_onTime`, `ownExpiry_none`); without one the
millisecond moves each running timer, as `ticked` says. -/
theorem emptyQueueStep : Obligations.EmptyQueueStep := by
  intro p
  refine ⟨fun off => ?_, fun code tag args rest heads => step_own (own_of_request heads.1 (ownRequest_heads heads)),
    fun bs rest on pending short requests bad =>
      step_own (own_of_request on (ownRequest_short (takesRequests_of pending short) requests bad)),
    fun c own => step_own own, fun on link => ?_, fun on silent => ?_⟩
  · rw [step_millisecond (by simp [Part.own, off]), millisecond_eq, if_neg (by simp [off])]
  · rw [own_of_idleLink on link]
    exact ⟨ownExpiry_onTime p, ownExpiry_none⟩
  · refine ⟨p.ticked, by rw [step_millisecond silent, millisecond_eq, if_pos on], ?_, fun l => ⟨fun off => ?_, fun enabled => ?_⟩⟩
    · unfold Part.ticked
      generalize p.monitor.takeover = t
      cases t <;> rfl
    · rw [ticked_line_eq, LineUnit.tick, if_pos off]
    · rw [ticked_line_eq, LineUnit.tick, if_neg enabled]

end Sys2Proof.Machine
end

section
namespace Sys2Proof.Machine

/-! ### Where the feed may move the stem (05 R122, R104) -/

/-- The states in which the stem is the feed's to move or to hold at rest: the motion states and SETTLE (05 R122). -/
def FeedState.claims (st : FeedState) : Prop := st.motion = true ∨ st = .settle

/-- What a claim on the stem supposes of the other blocks (05 R122). -/
def Part.mayMove (p : Part) : Prop :=
  p.saw.state = .parked ∧ p.monitor.takeover.inForce = false ∧ p.monitor.profile.works = true ∧ p.hasActive = true

/-- A cut request stands only in CUT_WAIT (05 R104). -/
def Feed.asksInWait (f : Feed) : Prop := f.request ≠ .none → f.state = .cutWait

theorem motionGuarded_iff {p : Part} : MotionGuarded p ↔ (p.feed.state.claims → p.mayMove) ∧ p.feed.asksInWait := .rfl

theorem MotionGuarded.may {p : Part} (h : MotionGuarded p) : p.feed.state.claims → p.mayMove := h.1

theorem MotionGuarded.asks {p : Part} (h : MotionGuarded p) : p.feed.asksInWait := h.2

@[simp] theorem claims_idle : ¬FeedState.claims .idle := by simp [FeedState.claims, FeedState.motion, FeedState.heading]
@[simp] theorem claims_grip : ¬FeedState.claims .grip := by simp [FeedState.claims, FeedState.motion, FeedState.heading]
@[simp] theorem claims_cutWait : ¬FeedState.claims .cutWait := by simp [FeedState.claims, FeedState.motion, FeedState.heading]
@[simp] theorem claims_stalled : ¬FeedState.claims .stalled := by simp [FeedState.claims, FeedState.motion, FeedState.heading]
@[simp] theorem claims_manual : ¬FeedState.claims .manual := by simp [FeedState.claims, FeedState.motion, FeedState.heading]
@[simp] theorem claims_settle : FeedState.claims .settle := .inr rfl
@[simp] theorem claims_seek : FeedState.claims .seek := .inl rfl
@[simp] theorem claims_feed : FeedState.claims .feed := .inl rfl
@[simp] theorem claims_approach : FeedState.claims .approach := .inl rfl
@[simp] theorem claims_correct (h : Heading) : FeedState.claims (.correct h) := .inl rfl
@[simp] theorem claims_recover (ph : Phase) : FeedState.claims (.recover ph) := by cases ph <;> exact .inl rfl

/-- What carries over: the feed's state and request stand, and whatever a claim supposes still holds. -/
theorem MotionGuarded.carried {p q : Part} (h : MotionGuarded p) (state : q.feed.state = p.feed.state)
    (request : q.feed.request = p.feed.request) (may : p.feed.state.claims → p.mayMove → q.mayMove) : MotionGuarded q := by
  refine motionGuarded_iff.mpr ⟨fun c => ?_, fun r => ?_⟩
  · rw [state] at c
    exact may c (h.may c)
  · rw [request] at r
    exact state.trans (h.asks r)

/-- A feed at rest with no request is guarded whatever the other blocks do. -/
theorem MotionGuarded.of_rest {p : Part} (rest : ¬p.feed.state.claims) (asks : p.feed.asksInWait) : MotionGuarded p :=
  motionGuarded_iff.mpr ⟨fun c => absurd c rest, asks⟩

theorem FeedOnly.mayMove {p q : Part} (h : FeedOnly p q) : q.mayMove ↔ p.mayMove := by
  have active : q.hasActive = p.hasActive := by rw [h]; rfl
  unfold Part.mayMove
  rw [h.saw, h.monitor, active]

/-! ### Entering and deciding -/

/-- A state other than the one held is entered with no request left over from a CUT_WAIT. -/
theorem enterFeed_asks (st : FeedState) {p : Part} (asks : p.feed.asksInWait) : (enterFeed st p).feed.asksInWait := by
  intro r
  rw [enterFeed_state]
  by_cases same : st = p.feed.state
  · rw [enterFeed, if_pos same] at r
    exact same.trans (asks r)
  · have left : (enterFeed st p).feed.request = if p.feed.state = .cutWait then .none else p.feed.request := by
      rw [enterFeed, if_neg same]
      dsimp only
      split <;> rfl
    rw [left] at r
    split at r
    · exact absurd rfl r
    · next out => exact absurd (asks r) out

theorem enterFeed_guarded {st : FeedState} {p : Part} (asks : p.feed.asksInWait) (may : st.claims → p.mayMove) :
    MotionGuarded (enterFeed st p) := by
  refine motionGuarded_iff.mpr ⟨fun c => ?_, enterFeed_asks st asks⟩
  rw [enterFeed_state] at c
  exact (enterFeed_feedOnly st p).mayMove.mpr (may c)

/-- The table sends the feed to work with the saw PARKED only (05 R98, row 6). -/
theorem decideRun_claims {p : Part} {r : Record} (h : (p.decideRun r).claims) : p.saw.state = .parked := by
  by_contra out
  unfold Part.decideRun at h
  rw [if_pos out] at h
  split at h
  · exact claims_stalled h
  · exact claims_grip h

/-- Where the table claims the stem, the stem is the feed's to move (05 R98, R122). -/
theorem decision_claims {p : Part} (h : p.decision.claims) : p.mayMove := by
  unfold Part.decision at h
  split at h
  · exact absurd h claims_idle
  · next r hr =>
    have active : p.hasActive = true := by rw [hasActive_isSome, hr]; rfl
    split at h
    · exact absurd h claims_idle
    · next works =>
      split at h
      · exact absurd h claims_manual
      · next free =>
        split at h
        · exact absurd h claims_idle
        · exact absurd h claims_grip
        · exact ⟨decideRun_claims h, Bool.eq_false_iff.mpr free, Bool.eq_true_of_not_eq_false works, active⟩

theorem feedDecide_guarded {p : Part} (asks : p.feed.asksInWait) : MotionGuarded (feedDecide p) := by
  refine enterFeed_guarded (fun r => asks fun e => r ?_) decision_claims
  show p.feed.withdraw.request = .none
  rw [Feed.withdraw, e]

/-! ### The feed's operations -/

theorem MotionGuarded.settingValue {p : Part} (h : MotionGuarded p) (v : FeedValue) : MotionGuarded (feedSetValue v p) := by
  rcases eq_or_ne v .run with rfl | hv
  · by_cases stops : p.feed.state = .idle ∨ p.feed.state = .grip ∨ p.feed.state = .stalled
    · rw [feedSetValue_restarts stops]
      exact feedDecide_guarded h.asks
    · simp only [not_or] at stops
      obtain ⟨idle, grip, stalled⟩ := stops
      rw [feedSetValue_goesOn idle grip stalled]
      exact h
  · have asks : (p.valued v).feed.asksInWait := fun r => h.asks fun e => r (by
      show p.feed.withdraw.request = .none
      rw [Feed.withdraw, e])
    rcases cut : p.feed.cutTaken
    · rw [feedSetValue_stops hv cut]
      exact feedDecide_guarded asks
    · rw [feedSetValue_taken hv cut]
      exact .of_rest (by
        show ¬p.feed.state.claims
        rw [((Feed.cutTaken_iff _).mp cut).1]
        exact claims_cutWait) asks

/-- Where no request is left, none stands outside CUT_WAIT. -/
theorem Feed.asksInWait_of_none {f : Feed} (h : f.request = .none) : f.asksInWait := fun r => absurd h r

theorem feedEnd_guarded (p : Part) : MotionGuarded (feedEnd p) :=
  enterFeed_guarded (Feed.asksInWait_of_none rfl) fun c => absurd c claims_idle

theorem feedAttach_guarded {p : Part} (asks : p.feed.asksInWait) : MotionGuarded (feedAttach p) :=
  feedDecide_guarded (p := { p with feed := { p.feed with
    value := .grip, held := none, corrections := 0, seekSpent := false, stallOut := false, cutAsLies := false } }) asks

theorem feedProfile_guarded (v : FeedValue) (p : Part) : MotionGuarded (feedProfile v p) :=
  feedDecide_guarded (Feed.asksInWait_of_none rfl)

/-- A takeover takes the stem from a feed at work on one; a feed with none to work on claims none (05 R118). -/
theorem feedTakeover_guarded {p : Part} (asks : p.feed.asksInWait)
    (may : p.feed.state.claims → p.hasActive = true ∧ p.monitor.profile.works = true) : MotionGuarded (feedTakeover p) := by
  unfold feedTakeover
  split
  · exact enterFeed_guarded (Feed.asksInWait_of_none rfl) fun c => absurd c claims_manual
  · next idle =>
    refine .of_rest (fun c => idle ?_) fun r => asks fun e => r (by
      show p.feed.withdraw.request = .none
      rw [Feed.withdraw, e])
    obtain ⟨active, works⟩ := may c
    rw [active, works]
    rfl

theorem MotionGuarded.feedReferenced {p : Part} (h : MotionGuarded p) : MotionGuarded (feedReferenced p) := by
  unfold Machine.feedReferenced
  dsimp only
  split
  · exact feedDecide_guarded h.asks
  · exact feedDecide_guarded h.asks
  · exact h

/-- Once the saw has left PARKED the feed leaves every state that claims the stem (05 R117). -/
theorem feedSawLeft_guarded {p : Part} (asks : p.feed.asksInWait) : MotionGuarded (feedSawLeft p) := by
  have rests : ∀ {st : FeedState}, p.feed.state = st → ¬st.claims → MotionGuarded p := fun e r => .of_rest (e ▸ r) asks
  unfold feedSawLeft
  split
  · exact feedDecide_guarded asks
  · exact feedDecide_guarded asks
  · exact feedDecide_guarded asks
  · exact feedDecide_guarded asks
  · exact feedDecide_guarded asks
  · exact feedDecide_guarded asks
  · next wait =>
    split
    · exact rests wait claims_cutWait
    · exact feedDecide_guarded asks
  · next e => exact rests e claims_idle
  · next e => exact rests e claims_grip
  · next e => exact rests e claims_stalled
  · next e => exact rests e claims_manual

theorem MotionGuarded.feedSawParked {p : Part} (h : MotionGuarded p) : MotionGuarded (feedSawParked p) := by
  unfold Machine.feedSawParked
  split
  · exact feedDecide_guarded h.asks
  · exact h

theorem MotionGuarded.feedCutOver {p : Part} (h : MotionGuarded p) : MotionGuarded (feedCutOver p) := by
  unfold Machine.feedCutOver
  split
  · exact feedDecide_guarded (Feed.asksInWait_of_none rfl)
  · exact h

/-! ### Stalls, seek, recovery, correction -/

/-- Out of one state that claims the stem the feed may pass to any other. -/
theorem MotionGuarded.enters {p : Part} (h : MotionGuarded p) (now : p.feed.state.claims) (st : FeedState) :
    MotionGuarded (enterFeed st p) := enterFeed_guarded h.asks fun _ => h.may now

theorem MotionGuarded.seekEnds {p : Part} (h : MotionGuarded p) : MotionGuarded (seekEnds p) :=
  feedDecide_guarded (p := { p with feed := { p.feed with seekSpent := true } }) h.asks

theorem MotionGuarded.stallFound {p : Part} (h : MotionGuarded p) (now : p.feed.state.claims) :
    MotionGuarded (stallFound p) :=
  MotionGuarded.enters (p := { p with feed := { p.feed with
    attempts := p.feed.attempts + 1, stallPoint := some p.length.head } }) h now _

theorem MotionGuarded.recoveryCheck {p : Part} (h : MotionGuarded p) : MotionGuarded (recoveryCheck p) := by
  unfold Machine.recoveryCheck
  split
  · next now => exact h.enters (now.1 ▸ claims_recover _) _
  · exact h

theorem MotionGuarded.recoverForward {p : Part} (h : MotionGuarded p) (now : p.feed.state.claims) :
    MotionGuarded (recoverForward p) := (h.enters now _).recoveryCheck

theorem MotionGuarded.correctionStalls {p : Part} (h : MotionGuarded p) (now : p.feed.state.claims) :
    MotionGuarded (correctionStalls p) := h.enters now .settle

theorem MotionGuarded.stallOutcome {p : Part} (h : MotionGuarded p) : MotionGuarded (stallOutcome p) := by
  unfold Machine.stallOutcome
  split
  · next e => exact h.stallFound (e ▸ claims_feed)
  · next e => exact h.stallFound (e ▸ claims_approach)
  · next e => exact h.stallFound (e ▸ claims_recover _)
  · next e => exact h.recoverForward (e ▸ claims_recover _)
  · next e => exact h.correctionStalls (e ▸ claims_correct _)
  · exact h.seekEnds
  · exact h
  · exact h
  · exact h
  · exact h
  · exact h
  · exact h

/-- The stall watch is no matter of the guard. -/
theorem MotionGuarded.stallProgress {p : Part} (h : MotionGuarded p) : MotionGuarded (stallProgress p) := by
  rw [stallProgress_eq]
  exact h

theorem MotionGuarded.targetCompare {p : Part} (h : MotionGuarded p) (now : p.feed.state.claims) (before : Option Int) :
    MotionGuarded (targetCompare before p) := by
  unfold Machine.targetCompare
  repeat' split
  · exact h
  · exact h.enters now _
  · exact h.enters now _
  · exact h
  · exact h

theorem MotionGuarded.feedCompare {p : Part} (h : MotionGuarded p) (before : Option Int) :
    MotionGuarded (feedCompare before p) := by
  unfold Machine.feedCompare
  split
  · next e => exact h.targetCompare (e ▸ claims_feed) before
  · next e => exact h.targetCompare (e ▸ claims_approach) before
  · next e =>
    have settles : ∀ there : Bool, MotionGuarded (if there then enterFeed .settle p else p) := fun there => by
      cases there
      · exact h
      · exact h.enters (e ▸ claims_correct _) _
    split
    · exact settles _
    · exact h
  · split
    · split
      · exact h.seekEnds
      · exact h
    · exact h
  · next e =>
    split
    · split
      · exact h.recoverForward (e ▸ claims_recover _)
      · exact h
    · exact h
  · exact h.recoveryCheck
  · exact h
  · exact h
  · exact h
  · exact h
  · exact h
  · exact h

theorem MotionGuarded.feedTravel {p : Part} (h : MotionGuarded p) (before : Option Int) :
    MotionGuarded (feedTravel before p) := h.stallProgress.feedCompare before

theorem MotionGuarded.feedReact {p : Part} (h : MotionGuarded p) (armed : Bool) : MotionGuarded (feedReact armed p) := by
  have decides := feedDecide_guarded h.asks
  unfold Machine.feedReact
  split
  · next e =>
    split
    · exact h.enters (e ▸ claims_feed) _
    · exact decides
  · next e =>
    split
    · exact h.enters (e ▸ claims_approach) _
    · exact decides
  · split
    · exact h
    · exact decides
  · split
    · exact h
    · exact decides
  · split
    · exact h.recoveryCheck
    · exact decides
  · exact decides
  · exact h
  · exact h
  · exact h
  · exact h
  · exact h

theorem MotionGuarded.feedHold {p : Part} (h : MotionGuarded p) : MotionGuarded (feedHold p) := by
  have decides := feedDecide_guarded h.asks
  unfold Machine.feedHold
  split
  · exact decides
  · exact decides
  · exact decides
  · exact h
  · exact h
  · exact h
  · exact h
  · exact h
  · exact h
  · exact h
  · exact h

theorem MotionGuarded.holdComes {p : Part} (h : MotionGuarded p) : MotionGuarded (holdComes p) :=
  MotionGuarded.feedHold (p := raise .diamReject { p with diameter := { p.diameter with hold := true } }) h

theorem MotionGuarded.holdTest {p : Part} (h : MotionGuarded p) : MotionGuarded (holdTest p) := by
  unfold Machine.holdTest
  split
  · exact h.holdComes
  · exact h

end Sys2Proof.Machine
end

section
namespace Sys2Proof.Machine

/-! ### The stem table's operations -/

theorem hasActive_mono {p q : Part} (h : ∀ i, p.isActive i = true → q.isActive i = true) :
    p.hasActive = true → q.hasActive = true := by
  intro active
  by_contra gone
  obtain ⟨i, hi⟩ := Option.isSome_iff_exists.mp active
  have here := h i (activeSlot_isActive hi)
  rw [hasActive_false (Bool.eq_false_iff.mpr gone) i] at here
  cases here

/-- A table whose ACTIVE slots stay ACTIVE carries the guard over. -/
theorem MotionGuarded.retabled {p q : Part} (h : MotionGuarded p) (feed : q.feed = p.feed) (saw : q.saw = p.saw)
    (monitor : q.monitor = p.monitor) (active : ∀ i, p.isActive i = true → q.isActive i = true) : MotionGuarded q :=
  h.carried (congrArg Feed.state feed) (congrArg Feed.request feed) fun _ ⟨parked, free, works, has⟩ =>
    ⟨by rw [saw, parked], by rw [monitor, free], by rw [monitor, works], hasActive_mono active has⟩

/-- Writing a slot whose record, where it is ACTIVE, stays so. -/
theorem MotionGuarded.written {p : Part} (h : MotionGuarded p) {i : Fin 8} {x : Option Record}
    (active : p.isActive i = true → ∃ r, x = some r ∧ r.state = .active) : MotionGuarded (p.setRecord i x) := by
  refine h.retabled rfl rfl rfl fun j hj => ?_
  rcases eq_or_ne j i with rfl | other
  · obtain ⟨r, rfl, state⟩ := active hj
    exact (isActive_iff _ _).mpr ⟨r, recordAt_setRecord_self p _ _, state⟩
  · rw [isActive_congr (recordAt_setRecord_ne p other.symm x)]
    exact hj

/-- Rewriting a record in its state. -/
theorem MotionGuarded.rewritten {p : Part} (h : MotionGuarded p) {i : Fin 8} {r r' : Record} (hr : p.recordAt i = some r)
    (state : r'.state = r.state) : MotionGuarded (p.setRecord i (some r')) :=
  h.written fun active => by
    obtain ⟨x, hx, was⟩ := (isActive_iff p i).mp active
    obtain rfl := Option.some.inj (hr.symm.trans hx)
    exact ⟨r', rfl, state.trans was⟩

theorem MotionGuarded.guidanceTest {p : Part} (h : MotionGuarded p) : MotionGuarded (guidanceTest p) := by
  unfold Machine.guidanceTest
  split
  · split
    · exact h
    · exact h
  · exact h

theorem MotionGuarded.handOver {p : Part} (h : MotionGuarded p) (e : Option Entry) (fresh : Bool) :
    MotionGuarded (handOver e fresh p) := by
  have reacts : MotionGuarded (reacted e fresh p) := MotionGuarded.feedReact (p := given e fresh p) h _
  unfold Machine.handOver
  dsimp only
  split
  · exact reacts.guidanceTest
  · exact reacts

theorem MotionGuarded.armingHands {p : Part} (h : MotionGuarded p) (a : Arming) : MotionGuarded (armingHands a p) := by
  cases a with
  | nothing => exact h
  | armed e => exact h.handOver _ _
  | filler e => exact MotionGuarded.handOver (p := raise .filler p) h _ _
  | empty => exact MotionGuarded.handOver (p := raise .planEmpty p) h _ _

theorem MotionGuarded.arm {p : Part} (h : MotionGuarded p) (i : Fin 8) : MotionGuarded (arm i p) := by
  unfold Machine.arm
  split
  · exact h
  · next r hr => exact (h.rewritten hr (armingTest_stays p r).1).armingHands _

/-- The end of an ACTIVE period leaves the feed IDLE with no request. -/
theorem endPeriod_guarded (p : Part) : MotionGuarded (endPeriod p) := feedEnd_guarded _

theorem finishTop_guarded (i : Fin 8) (r : Record) (x : Int) (p : Part) : MotionGuarded (finishTop i r x p) :=
  endPeriod_guarded _

theorem MotionGuarded.dropReport {p : Part} (h : MotionGuarded p) : MotionGuarded (dropReport p) := by
  unfold Machine.dropReport
  split
  · next i r _ _ => exact endPeriod_guarded (p.setRecord i (some r.drop))
  · exact h

theorem MotionGuarded.established {p : Part} (h : MotionGuarded p) (i : Fin 8) : MotionGuarded (established i p) :=
  h.feedReferenced.arm i

theorem MotionGuarded.referenceReport {p : Part} (h : MotionGuarded p) : MotionGuarded (referenceReport p) := by
  unfold Machine.referenceReport
  split
  · next i r hi hr =>
    split
    · have rewrites : MotionGuarded (p.setRecord i (some { r with reference := .endSensed })) :=
        h.rewritten (recordAt_of_active hi hr) rfl
      exact rewrites.established i
    · exact h
  · exact h

theorem MotionGuarded.topReport {p : Part} (h : MotionGuarded p) (x : Int) : MotionGuarded (topReport x p) := by
  unfold Machine.topReport
  split
  · next i r hi hr =>
    repeat' split
    · exact h
    · exact h.rewritten (recordAt_of_active hi hr) rfl
    · exact finishTop_guarded _ _ _ p
  · exact h

theorem MotionGuarded.cutStart {p : Part} (h : MotionGuarded p) (kind : CutKind) : MotionGuarded (cutStart kind p) := by
  rcases hi : p.activeSlot with _ | i
  · rw [cutStart_idle hi]
    exact h
  obtain ⟨r, hr, -⟩ := (isActive_iff p i).mp (activeSlot_isActive hi)
  by_cases href : r.reference = .none
  · rw [cutStart_reference hi hr href]
    exact h
  rcases he : p.cutEntry r kind with _ | e
  · rw [cutStart_placed hi hr href he]
    exact h
  · rw [cutStart_entry hi hr href he]
    have cuts : MotionGuarded ((carrying p).setRecord i (some (r.cuts e))) :=
      MotionGuarded.rewritten (p := carrying p) h hr rfl
    exact MotionGuarded.handOver (p := ((carrying p).setRecord i (some (r.cuts e))).bind _) cuts _ _

theorem MotionGuarded.rebase {p : Part} (h : MotionGuarded p) (active : Bool) : MotionGuarded (rebase active p) := by
  unfold Machine.rebase
  repeat' split
  · exact h
  · exact h
  · exact h

theorem recordAt_rebase (active : Bool) (p : Part) (i : Fin 8) : (rebase active p).recordAt i = p.recordAt i := by
  unfold rebase
  repeat' split
  · rfl
  · rfl
  · rfl

theorem MotionGuarded.recorded {p : Part} (h : MotionGuarded p) {i : Fin 8} {r r' : Record} (hr : p.recordAt i = some r)
    (state : r'.state = r.state) (active : Bool) (n : Notice) : MotionGuarded (recorded i active r' n p) :=
  (h.rebase active).rewritten ((recordAt_rebase active p i).trans hr) state

theorem MotionGuarded.afterLog {p : Part} (h : MotionGuarded p) (i : Fin 8) (r : Record) (x : Int) :
    MotionGuarded (afterLog i r x p) := by
  unfold Machine.afterLog
  split
  · exact finishTop_guarded _ _ _ p
  · exact h.arm i

theorem MotionGuarded.cutComplete {p : Part} (h : MotionGuarded p) : MotionGuarded (cutComplete p) := by
  rcases hb : p.table.bound with _ | b
  · rw [cutComplete_unbound hb]
    exact h
  rcases hr : p.recordAt b.slot with _ | r
  · rw [cutComplete_free hb hr]
    exact h
  by_cases ht : ∃ prof d, b.target = .reference prof d
  · obtain ⟨prof, d, ht⟩ := ht
    rw [cutComplete_reference hb hr ht]
    have done := h.recorded (r' := r.recordReference prof d) hr rfl (r.state == .active)
      (cutDoneNotice (p.stemId b.slot) b (r.recordReference prof d) .reference none)
    dsimp only
    split
    · exact done.established _
    · exact done
  · rw [cutComplete_log hb hr fun prof d h => ht ⟨prof, d, h⟩]
    have state := recordCut_state r b.kind b.target
    generalize r.recordCut b.kind b.target = c at state ⊢
    have done := h.recorded hr state (r.state == .active) (cutDoneNotice (p.stemId b.slot) b c.1 c.2.1 c.2.2)
    dsimp only
    split
    · exact done.afterLog _ _ _
    · exact done

theorem MotionGuarded.cutAbort {p : Part} (h : MotionGuarded p) : MotionGuarded (cutAbort p) := by
  obtain ⟨eq, -⟩ | ⟨b, r, es, returns, eq⟩ := cutAbort_cases p
  · rw [eq]
    exact h
  · have rewrites : MotionGuarded ((unbound p).setRecord b.slot (some { r with entries := es })) :=
      MotionGuarded.rewritten (p := unbound p) h returns.record rfl
    rw [eq]
    unfold entryReturned
    dsimp only
    split
    · exact rewrites.handOver _ _
    · exact rewrites

end Sys2Proof.Machine
end

section
namespace Sys2Proof.Machine

/-! ### The measuring units and a count -/

/-! Work on the measuring units, the link's list and the draws is no matter of the guard. -/

theorem MotionGuarded.takeSample {p : Part} (h : MotionGuarded p) : MotionGuarded (takeSample p) := by
  unfold Machine.takeSample
  split
  · exact h
  · exact h

theorem MotionGuarded.sampleDue {p : Part} (h : MotionGuarded p) : MotionGuarded (sampleDue p) := by
  unfold Machine.sampleDue
  repeat' split
  · exact h.takeSample
  · exact h
  · exact h

theorem MotionGuarded.gripSample {p : Part} (h : MotionGuarded p) : MotionGuarded (gripSample p) := by
  have waited : MotionGuarded { p with diameter := { p.diameter with gripWait := none } } := h
  unfold Machine.gripSample
  dsimp only
  repeat' split
  · exact waited.takeSample
  · exact waited
  · exact h

theorem MotionGuarded.midCross {p : Part} (h : MotionGuarded p) (before : Option Int) : MotionGuarded (midCross before p) := by
  unfold Machine.midCross
  repeat' split
  · exact h
  · exact h
  · exact h

theorem MotionGuarded.creepCheck {p : Part} (h : MotionGuarded p) : MotionGuarded (creepCheck p) := by
  unfold Machine.creepCheck
  repeat' split
  · exact h
  · exact h
  · exact h

theorem MotionGuarded.referenceStem {p : Part} (h : MotionGuarded p) : MotionGuarded (referenceStem p) := by
  unfold Machine.referenceStem
  split
  · split
    · exact MotionGuarded.referenceReport (p := { p with
        length := { p.length with
          logPos := some (-(p.endOffset * 1000)), history := some (p.freshLog (-(p.endOffset * 1000))), mirror := true }
        diameter := p.diameter.newLog }) h
    · exact h
  · exact h

theorem MotionGuarded.reportTop {p : Part} (h : MotionGuarded p) : MotionGuarded (reportTop p) := by
  unfold Machine.reportTop
  repeat' split
  · exact h.topReport _
  · exact h
  · exact h

theorem MotionGuarded.endQualify {p : Part} (h : MotionGuarded p) : MotionGuarded (endQualify p) := by
  have qualified : MotionGuarded { p with
    length := { p.length with endPending := none, endCovered := !p.length.endCovered } } := h
  unfold Machine.endQualify
  dsimp only
  repeat' split
  · exact h
  · exact qualified
  · exact qualified.reportTop
  · exact qualified.referenceStem
  · exact h

theorem MotionGuarded.holdMeetsStop {p : Part} (h : MotionGuarded p) (before : Option Int) :
    MotionGuarded (holdMeetsStop before p) := by
  have drawn : MotionGuarded { p with draws := p.draws + 1 } := h
  unfold Machine.holdMeetsStop
  dsimp only
  repeat' split
  · exact drawn.holdComes.feedTravel before
  · exact (drawn.feedTravel before).holdComes
  · exact drawn.feedTravel before

theorem MotionGuarded.feedTravelSampled {p : Part} (h : MotionGuarded p) (before : Option Int) :
    MotionGuarded (feedTravelSampled before p) := by
  unfold Machine.feedTravelSampled
  split
  · exact h.holdMeetsStop before
  · exact h.feedTravel before

theorem MotionGuarded.guidanceTravel {p : Part} (h : MotionGuarded p) (before : Option Int) :
    MotionGuarded (guidanceTravel before p) := by
  unfold Machine.guidanceTravel
  split
  · exact h
  · exact h.guidanceTest

theorem MotionGuarded.selectedTravel {p : Part} (h : MotionGuarded p) (d : Int) : MotionGuarded (selectedTravel d p) := by
  have moved : MotionGuarded (moveSums d p) := h
  unfold Machine.selectedTravel
  dsimp only
  refine (MotionGuarded.feedTravelSampled ?_ _).guidanceTravel _
  refine (MotionGuarded.creepCheck ?_).endQualify
  split
  · exact moved.sampleDue.midCross _
  · exact moved.sampleDue

theorem MotionGuarded.slipClose {p : Part} (h : MotionGuarded p) : MotionGuarded (slipClose p) := by
  unfold Machine.slipClose
  dsimp only
  repeat' split
  · exact h
  · exact h
  · exact h
  · exact h
  · exact h

theorem MotionGuarded.wheelCounts {p : Part} (h : MotionGuarded p) (forward : Bool) : MotionGuarded (wheelCounts forward p) := by
  have moved : ∀ l, MotionGuarded { p with length := l } := fun _ => h
  unfold Machine.wheelCounts
  dsimp only
  refine MotionGuarded.slipClose ?_
  split
  · exact (moved _).selectedTravel _
  · exact moved _

theorem MotionGuarded.seat {p : Part} (h : MotionGuarded p) (d : Int) : MotionGuarded (seat d p) := by
  unfold Machine.seat
  repeat' split
  · exact h
  · exact h
  · exact h
  · exact h

theorem MotionGuarded.rollerCounts {p : Part} (h : MotionGuarded p) (forward : Bool) :
    MotionGuarded (rollerCounts forward p) := by
  have moved : ∀ l, MotionGuarded { p with length := l } := fun _ => h
  unfold Machine.rollerCounts
  dsimp only
  refine MotionGuarded.seat ?_ _
  split
  · exact (moved _).selectedTravel _
  · exact moved _

theorem MotionGuarded.contactLevel {p : Part} (h : MotionGuarded p) (closed : Bool) : MotionGuarded (contactLevel closed p) := by
  unfold Machine.contactLevel
  split
  · exact h
  · exact h

theorem MotionGuarded.endSensorLevel {p : Part} (h : MotionGuarded p) (covered : Bool) :
    MotionGuarded (endSensorLevel covered p) := by
  unfold Machine.endSensorLevel
  split
  · exact h
  · exact h

/-! ### The arm lines -/

theorem MotionGuarded.lineReads {p : Part} (h : MotionGuarded p) (l : Line) (x : BitVec 12) : MotionGuarded (lineReads l x p) := by
  unfold Machine.lineReads
  dsimp only
  split
  · exact h
  · exact h

theorem MotionGuarded.lineOutExpires {p : Part} (h : MotionGuarded p) (l : Line) : MotionGuarded (lineOutExpires l p) := by
  unfold Machine.lineOutExpires
  split
  · exact h
  · exact h
  · exact h

theorem MotionGuarded.lineInExpires {p : Part} (h : MotionGuarded p) (l : Line) : MotionGuarded (lineInExpires l p) := by
  unfold Machine.lineInExpires
  split
  · exact h
  · exact h
  · exact h

theorem MotionGuarded.lineDeadline {p : Part} (h : MotionGuarded p) (l : Line) : MotionGuarded (lineDeadline l p) := by
  unfold Machine.lineDeadline
  split
  · exact h
  · exact h

theorem MotionGuarded.deadlinePasses {p : Part} (h : MotionGuarded p) : MotionGuarded (deadlinePasses p) :=
  ((h.lineDeadline .ka).lineDeadline .kb).lineDeadline .rl

theorem MotionGuarded.lineEnableWritten {p : Part} (h : MotionGuarded p) (l : Line) : MotionGuarded (lineEnableWritten l p) := by
  unfold Machine.lineEnableWritten
  split
  · exact h
  · exact h

theorem MotionGuarded.lineWindowWritten {p : Part} (h : MotionGuarded p) (l : Line) : MotionGuarded (lineWindowWritten l p) := by
  unfold Machine.lineWindowWritten
  split
  · exact h
  · exact h

end Sys2Proof.Machine
end

section
namespace Sys2Proof.Machine

/-! ### The saw -/

/-- With the saw out of PARKED the feed claims no stem (05 R122). -/
theorem MotionGuarded.rests {p : Part} (h : MotionGuarded p) (out : p.saw.state ≠ .parked) : ¬p.feed.state.claims :=
  fun c => out (h.may c).1

/-- The saw moves while the feed claims no stem. -/
theorem MotionGuarded.sawed {p : Part} (h : MotionGuarded p) (rest : ¬p.feed.state.claims) (w : Saw) :
    MotionGuarded { p with saw := w } := .of_rest rest h.asks

theorem MotionGuarded.sawParks {p : Part} (h : MotionGuarded p) : MotionGuarded (sawParks p) := by
  refine MotionGuarded.feedSawParked ?_
  refine h.carried rfl rfl fun _ ⟨_, free, works, active⟩ => ?_
  exact ⟨rfl, free, works, active⟩

theorem MotionGuarded.sawFaults {p : Part} (h : MotionGuarded p) (out : p.saw.state ≠ .parked) : MotionGuarded (sawFaults p) :=
  h.sawed (h.rests out) _

theorem MotionGuarded.strokeCompletes {p : Part} (h : MotionGuarded p) (out : p.saw.state ≠ .parked) :
    MotionGuarded (strokeCompletes p) := by
  have ended := (h.sawed (h.rests out) (p.saw.return_ .completed)).cutComplete.feedCutOver
  unfold Machine.strokeCompletes
  dsimp only
  split
  · exact ended.sawParks
  · exact ended

/-- The saw advances only while the feed claims no stem. -/
theorem MotionGuarded.sawAdvances {p : Part} (h : MotionGuarded p) (rest : ¬p.feed.state.claims) (c : Cycle) :
    MotionGuarded (sawAdvances c p) := by
  have starts := (h.sawed rest { p.saw with
    state := .advancing, cycle := some c, cutTimer := some 0, returnTimer := none }).cutStart c.kind
  unfold Machine.sawAdvances
  dsimp only
  split
  · refine starts.strokeCompletes ?_
    rw [(cutStart_planWork c.kind _).saw]
    nofun
  · exact starts

theorem sawTakes_guarded {p : Part} (wait : p.feed.state = .cutWait) (k : CutKind) : MotionGuarded (sawTakes k p) := by
  have rest : ¬p.feed.state.claims := wait ▸ claims_cutWait
  have taken : MotionGuarded { p with feed := { p.feed with request := .taken k, pendingDirect := false } } :=
    .of_rest rest fun _ => wait
  exact taken.sawAdvances rest _

theorem MotionGuarded.offerRequest {p : Part} (h : MotionGuarded p) : MotionGuarded (offerRequest p) := by
  unfold Machine.offerRequest
  split
  · next wait _ =>
    split
    · exact sawTakes_guarded wait _
    · exact h
  · exact h

/-- The bar home in RETURNING: the saw is out of PARKED, so a second advance meets no feed that claims the stem. -/
theorem MotionGuarded.returnEnds {p : Part} (h : MotionGuarded p) (out : p.saw.state ≠ .parked) :
    MotionGuarded (returnEnds p) := by
  unfold Machine.returnEnds
  repeat' split
  · exact h.sawParks
  · exact h.sawAdvances (h.rests out) _
  · exact h.sawParks
  · exact h.sawFaults out
  · exact h.sawParks
  · exact h.sawParks

theorem MotionGuarded.jamEnds {p : Part} (h : MotionGuarded p) (out : p.saw.state ≠ .parked) : MotionGuarded (jamEnds p) := by
  unfold Machine.jamEnds
  split
  · exact h.sawFaults out
  · exact h.sawFaults out
  · exact h.sawParks
  · exact h.sawParks

theorem cutAbort_saw (p : Part) : (cutAbort p).saw = p.saw := (cutAbort_planWork p).saw

theorem MotionGuarded.manualEnds {p : Part} (h : MotionGuarded p) (out : p.saw.state ≠ .parked) :
    MotionGuarded (manualEnds p) := by
  unfold Machine.manualEnds
  repeat' split
  · exact h.sawParks
  · exact h.sawParks
  · exact h.cutAbort.sawFaults (cutAbort_saw p ▸ out)
  · exact h.cutAbort.sawParks

theorem MotionGuarded.firstTimeout {p : Part} (h : MotionGuarded p) (out : p.saw.state ≠ .parked) :
    MotionGuarded (firstTimeout p) := by
  have aborted := (h.sawed (h.rests out) (p.saw.return_ .firstTimeout)).cutAbort
  unfold Machine.firstTimeout
  dsimp only
  split
  · refine aborted.returnEnds ?_
    rw [cutAbort_saw]
    nofun
  · exact aborted

theorem MotionGuarded.secondTimeout {p : Part} (h : MotionGuarded p) (out : p.saw.state ≠ .parked) :
    MotionGuarded (secondTimeout p) := by
  have returning : MotionGuarded (raise .sawTimeout { p with saw := p.saw.return_ .secondTimeout }) :=
    h.sawed (h.rests out) _
  have ended := returning.cutAbort.feedCutOver
  unfold Machine.secondTimeout
  dsimp only
  split
  · refine ended.sawFaults ?_
    rw [(feedCutOver_feedOnly _).saw, cutAbort_saw]
    nofun
  · exact ended

theorem MotionGuarded.cutTimesOut {p : Part} (h : MotionGuarded p) : MotionGuarded (cutTimesOut p) := by
  unfold Machine.cutTimesOut
  split
  · next advancing =>
    have out : p.saw.state ≠ .parked := by rw [advancing]; nofun
    split
    · exact h.secondTimeout out
    · exact h.firstTimeout out
  · exact h

theorem MotionGuarded.returnTimesOut {p : Part} (h : MotionGuarded p) : MotionGuarded (returnTimesOut p) := by
  unfold Machine.returnTimesOut
  split
  · next returning =>
    have out : p.saw.state ≠ .parked := by rw [returning]; nofun
    have jammed : MotionGuarded (raise .sawJam { p with saw := { p.saw with state := .jammed, returnTimer := none } }) :=
      h.sawed (h.rests out) _
    exact jammed.feedCutOver
  · exact h

/-! ### The bar's switches -/

theorem MotionGuarded.barLeaves {p : Part} (h : MotionGuarded p) : MotionGuarded (barLeaves p) := by
  unfold Machine.barLeaves
  dsimp only
  split
  · refine MotionGuarded.cutStart ?_ _
    exact feedSawLeft_guarded (p := { p with pins := _, saw := _ }) h.asks
  · exact h

theorem MotionGuarded.strokeEnds {p : Part} (h : MotionGuarded p) : MotionGuarded (strokeEnds p) := by
  have closed : MotionGuarded { p with pins := { p.pins with endOfStroke := true } } := h
  unfold Machine.strokeEnds
  dsimp only
  split
  · next e => exact closed.strokeCompletes (by rw [show p.saw.state = .advancing from e]; nofun)
  · next e =>
    have out : p.saw.state ≠ .parked := by rw [e]; nofun
    split
    · split
      · exact h
      · exact (closed.sawed (h.rests out) _).cutComplete
    · exact h
  · exact h
  · exact h
  · exact h
  · exact h

theorem MotionGuarded.barHomes {p : Part} (h : MotionGuarded p) : MotionGuarded (barHomes p) := by
  have closed : MotionGuarded { p with pins := { p.pins with homeClosed := true, endOfStroke := false } } := h
  unfold Machine.barHomes
  dsimp only
  split
  · next e => exact (closed.returnEnds (by rw [show p.saw.state = .returning from e]; nofun)).offerRequest
  · next e => exact (closed.manualEnds (by rw [show p.saw.state = .manual from e]; nofun)).offerRequest
  · next e => exact (closed.jamEnds (by rw [show p.saw.state = .jammed from e]; nofun)).offerRequest
  · exact h
  · exact h
  · exact h

/-! ### The feed asks for a cut -/

/-- CUT_WAIT claims no stem, and it is where a request stands. -/
theorem goCutWait_guarded (p : Part) : MotionGuarded (goCutWait p) := by
  refine MotionGuarded.offerRequest (.of_rest ?_ fun _ => enterFeed_state .cutWait p)
  show ¬(enterFeed .cutWait p).feed.state.claims
  rw [enterFeed_state]
  exact claims_cutWait

theorem settleCuts_guarded (p : Part) : MotionGuarded (settleCuts p) := goCutWait_guarded _

theorem MotionGuarded.settleEnds {p : Part} (h : MotionGuarded p) : MotionGuarded (settleEnds p) := by
  unfold Machine.settleEnds
  split
  · next settle =>
    split
    · exact settleCuts_guarded p
    · split
      · exact feedDecide_guarded h.asks
      · dsimp only
        repeat' split
        · exact settleCuts_guarded p
        · exact goCutWait_guarded p
        · exact h.enters (settle ▸ claims_settle) (.correct _)
        · exact h.enters (settle ▸ claims_settle) (.correct _)
        · exact settleCuts_guarded p
  · exact h

theorem MotionGuarded.cutNow {p : Part} (h : MotionGuarded p) : MotionGuarded (cutNow p) := by
  have marked : MotionGuarded { p with feed := { p.feed with pendingDirect := true, stallOut := false } } := h
  unfold Machine.cutNow
  dsimp only
  split
  · next e => exact marked.enters (e ▸ claims_feed) _
  · next e => exact marked.enters (e ▸ claims_approach) _
  · next e => exact marked.enters (e ▸ claims_seek) _
  · next e => exact marked.enters (e ▸ claims_correct _) _
  · next e => exact marked.enters (e ▸ claims_recover _) _
  · exact h
  · exact goCutWait_guarded _
  · exact goCutWait_guarded _
  · exact goCutWait_guarded _
  · next e =>
    split
    · exact h
    · exact MotionGuarded.offerRequest (.of_rest (e ▸ claims_cutWait) fun _ => e)
  · exact h

end Sys2Proof.Machine
end

section
namespace Sys2Proof.Machine

/-! ### The takeover monitor -/

/-- The takeover is no matter of a feed that claims no stem, and none stands where it claims one (05 R122). -/
theorem MotionGuarded.undertaken {p : Part} (h : MotionGuarded p) {t : Takeover}
    (free : p.monitor.takeover.inForce = false → t.inForce = false) :
    MotionGuarded { p with monitor := { p.monitor with takeover := t } } := by
  refine h.carried rfl rfl fun _ ⟨parked, was, works, active⟩ => ?_
  exact ⟨parked, free was, works, active⟩

theorem markTakeover_hasActive {p : Part} (h : p.hasActive = true) : (markTakeover p).hasActive = true := by
  unfold markTakeover
  split
  · next i hi =>
    obtain ⟨r, hr, state⟩ := (isActive_iff p i).mp (activeSlot_isActive hi)
    have marks : p.mapRecord i (fun r => { r with takeoverSeen := true })
        = p.setRecord i (some { r with takeoverSeen := true }) := by
      rw [Part.mapRecord, hr]
      rfl
    rw [marks, Part.hasActive, rewritten_activeSlot (r' := { r with takeoverSeen := true }) hr rfl]
    exact h
  · exact h

theorem markTakeover_beside (p : Part) : (markTakeover p).feed = p.feed ∧ (markTakeover p).monitor = p.monitor := by
  unfold markTakeover
  split
  · exact ⟨rfl, rfl⟩
  · exact ⟨rfl, rfl⟩

/-- A takeover takes the stem from the feed: of the guard before it, what does not speak of a takeover goes on (08 R170). -/
theorem MotionGuarded.takeoverBegins {p : Part} (h : MotionGuarded p) (t : Takeover) : MotionGuarded (takeoverBegins t p) := by
  set x : Part := { p with monitor := { p.monitor with takeover := t }, saw := p.saw.takeCommand } with hx
  obtain ⟨feed, monitor⟩ := markTakeover_beside x
  have taken : MotionGuarded (feedTakeover (markTakeover x)) := by
    refine feedTakeover_guarded (by rw [feed]; exact h.asks) fun c => ?_
    rw [feed] at c
    obtain ⟨_, _, works, active⟩ := h.may c
    exact ⟨markTakeover_hasActive active, by rw [monitor]; exact works⟩
  unfold Machine.takeoverBegins
  dsimp only
  split
  · exact taken
  · exact taken

theorem MotionGuarded.takeoverEnds {p : Part} (h : MotionGuarded p) : MotionGuarded (takeoverEnds p) :=
  (h.undertaken (t := .none) fun _ => rfl).settingValue .grip

theorem MotionGuarded.releaseExpires {p : Part} (h : MotionGuarded p) : MotionGuarded (releaseExpires p) := by
  unfold Machine.releaseExpires
  split
  · exact h.takeoverEnds
  · exact h
  · exact h

theorem MotionGuarded.stickArrives {p : Part} (h : MotionGuarded p) (f : BusFrame) : MotionGuarded (stickArrives f p) := by
  have seen : ∀ s e, MotionGuarded { p with
      monitor := { p.monitor with stick := s }, saw := { p.saw with expectation := e } } := fun _ _ => h
  unfold Machine.stickArrives Machine.stickDecoded
  dsimp only
  split
  · split
    · exact (seen _ _).takeoverBegins _
    · next t e => exact (seen _ _).undertaken (by rw [show p.monitor.takeover = .snooped t from e]; nofun)
    · exact seen _ _
  · exact seen _ _

theorem MotionGuarded.snoopWritten {p : Part} (h : MotionGuarded p) : MotionGuarded (snoopWritten p) := by
  unfold Machine.snoopWritten
  split
  · refine h.undertaken fun free => ?_
    split
    · next e => rw [e] at free; cases free
    · exact free
  · refine MotionGuarded.undertaken (p := { p with monitor := { p.monitor with stick := none } }) h fun free => ?_
    split
    · next e => rw [show p.monitor.takeover = _ from e] at free; cases free
    · exact free

theorem profileSet_guarded (n : Profile) (p : Part) : MotionGuarded (profileSet n p) :=
  (feedProfile_guarded _ _).guidanceTest

/-! ### Settings -/

theorem MotionGuarded.settingActs {p : Part} (h : MotionGuarded p) (n : Fin 40) : MotionGuarded (settingActs n p) := by
  unfold Machine.settingActs
  repeat' split
  · exact h.lineEnableWritten _
  · exact h.lineEnableWritten _
  · exact h.lineEnableWritten _
  · exact h.lineWindowWritten _
  · exact h.lineWindowWritten _
  · exact h.lineWindowWritten _
  · exact h.cutTimesOut
  · exact h
  · exact h.returnTimesOut
  · exact h
  · exact h.snoopWritten
  · exact h.releaseExpires
  · exact h
  · exact h

theorem MotionGuarded.settingTaken {p : Part} (h : MotionGuarded p) (n : Fin 40) (v : Int) :
    MotionGuarded (settingTaken n v p) := by
  have writes : MotionGuarded (writeSetting n v p) := by
    have set : MotionGuarded (setSetting n v p) := h
    unfold Machine.writeSetting
    split
    · exact h
    · exact set.settingActs n
  unfold Machine.settingTaken Machine.refreshCompare
  repeat' split
  · exact writes
  · exact writes
  · exact writes

/-! ### Reset, power and the link -/

/-- A feed with its reset values is IDLE and asks for nothing. -/
theorem MotionGuarded.of_reset {p : Part} (h : p.feed = .reset) : MotionGuarded p :=
  .of_rest (by rw [h]; exact claims_idle) (by rw [h]; exact Feed.asksInWait_of_none rfl)

theorem resetEffect_guarded (k : ResetKind) (p : Part) : MotionGuarded (resetEffect k p) := .of_reset rfl

theorem MotionGuarded.itemSent {p : Part} (h : MotionGuarded p) (i : SendItem) (rest : List SendItem) :
    MotionGuarded (itemSent i rest p) := by
  unfold Machine.itemSent
  dsimp only
  repeat' split
  · exact resetEffect_guarded _ _
  · exact h
  · exact h

theorem MotionGuarded.frameSent {p : Part} (h : MotionGuarded p) : MotionGuarded (frameSent p) := by
  have drawn : MotionGuarded { p with draws := p.draws + 1 } := h
  unfold Machine.frameSent
  dsimp only
  split
  · exact h
  · exact h
  · exact h.itemSent _ _
  · repeat' split
    · exact h
    · exact h.itemSent _ _
    · exact h
    · exact drawn.itemSent _ _

theorem MotionGuarded.transmitFails {p : Part} (h : MotionGuarded p) : MotionGuarded (transmitFails p) := by
  unfold Machine.transmitFails
  dsimp only
  split
  · have off : ∀ l, MotionGuarded { p with link := l } := fun _ => h
    exact (off _).settingValue .grip
  · exact h

theorem MotionGuarded.requestArrives {p : Part} (h : MotionGuarded p) (f : BusFrame) : MotionGuarded (requestArrives f p) := by
  unfold Machine.requestArrives
  split
  · exact h
  · exact h

theorem MotionGuarded.serveBad {p : Part} (h : MotionGuarded p) : MotionGuarded (serveBad p) := by
  unfold Machine.serveBad
  split
  · exact h
  · exact h

theorem MotionGuarded.storeCompletes {p : Part} (h : MotionGuarded p) (held : Bool) : MotionGuarded (storeCompletes held p) := by
  unfold Machine.storeCompletes
  dsimp only
  split
  · exact h
  · exact h

/-! ### The end of an event -/

theorem MotionGuarded.concluded {p : Part} (h : MotionGuarded p) (b : Part) : MotionGuarded (conclude b p) := by
  have released : MotionGuarded (resetInBusOff p) := by
    unfold resetInBusOff
    repeat' split
    · exact resetEffect_guarded _ _
    · exact h
    · exact h
  rw [conclude_eq, concludeRest_eq]
  exact released.holdTest

theorem MotionGuarded.perform {f : Part → Part} {p : Part} (h : MotionGuarded p) (may : Bool) (works : MotionGuarded (f p)) :
    MotionGuarded (perform may f p) := by
  unfold Machine.perform
  split
  · exact works.concluded p
  · exact h

theorem MotionGuarded.sense {f : Part → Part} {p : Part} (h : MotionGuarded p) (pins : Pins → Pins)
    (works : MotionGuarded (f p)) : MotionGuarded (sense f pins p) := by
  unfold Machine.sense
  split
  · exact works.concluded p
  · exact h

/-- Power makes every block's reset state. -/
theorem powerUp_guarded (straps : BitVec 2) (p : Part) : MotionGuarded (powerUp straps p) := by
  unfold powerUp
  dsimp only
  refine MotionGuarded.concluded (.of_reset ?_) p
  split
  · rfl
  · rfl

theorem MotionGuarded.millisecond {p : Part} (h : MotionGuarded p) : MotionGuarded (millisecond p) := by
  unfold Machine.millisecond
  split
  · refine h.carried rfl rfl fun _ ⟨parked, free, works, active⟩ => ?_
    exact ⟨parked, (tick_inForce _).trans free, works, active⟩
  · exact h

end Sys2Proof.Machine
end

section
namespace Sys2Proof.Machine

/-! ### The requests -/

/-- What a handler does keeps the guard. -/
def Guards (handler : List Byte → Part → Reply) : Prop := ∀ args p, MotionGuarded p → MotionGuarded (handler args p).part

theorem MotionGuarded.withStem {id : StemId} {p : Part} {k : Fin 8 → Record → Reply} (h : MotionGuarded p)
    (takes : ∀ i r, p.recordAt i = some r → MotionGuarded (k i r).part) : MotionGuarded (withStem id p k).part := by
  unfold Machine.withStem
  split
  · exact h
  · split
    · exact h
    · next r hr => exact takes _ r hr

/-- A request's row keeps the guard where its handler does: the queue and the send list are no matter of it. -/
theorem MotionGuarded.request {handler : List Byte → Part → Reply} {p : Part} (h : MotionGuarded p) (code : Byte)
    (need : List Byte → Nat) (k : Guards handler) : MotionGuarded (request code need handler p) := by
  refine h.perform _ ?_
  unfold serve
  split
  · next c tag args rest _ =>
    have screened : MotionGuarded (screen c need handler args (p.handed rest)).part := by
      unfold screen
      repeat' split
      · exact h
      · exact h
      · exact k args _ h
    exact screened
  · exact h

theorem doSetProfile_guards : Guards doSetProfile := fun args p h => by
  unfold doSetProfile
  repeat' split
  · exact h
  · exact h
  · exact h
  · exact profileSet_guarded _ p

theorem doSetFeed_guards : Guards doSetFeed := fun args p h => by
  unfold doSetFeed
  repeat' split
  · exact h
  · exact h
  · exact h
  · exact h.settingValue _

theorem doKnifeOverride_guards : Guards doKnifeOverride := fun args p h => by
  unfold doKnifeOverride
  repeat' split
  · exact h
  · exact h
  · exact h

theorem doTakeover_guards : Guards doTakeover := fun args p h => by
  have begins : MotionGuarded (takeoverRequested p) := by
    unfold takeoverRequested
    split
    · exact h
    · exact h.takeoverBegins _
  have ends : MotionGuarded (takeoverReleased p) := by
    unfold takeoverReleased
    split
    · exact h.takeoverEnds
    · exact h
  unfold doTakeover
  repeat' split
  · exact h
  · exact h
  · exact begins
  · exact ends

theorem doCutNow_guards : Guards doCutNow := fun args p h => by
  unfold doCutNow
  repeat' split
  · exact h
  · exact h
  · exact h
  · exact h
  · exact h
  · exact h.cutNow

/-- A record opens in a FREE slot. -/
theorem doOpenStem_guards : Guards doOpenStem := fun args p h => by
  unfold doOpenStem
  repeat' split
  · exact h
  · exact h
  · exact h
  · exact h
  · next i hi =>
    refine h.written fun active => ?_
    obtain ⟨r, hr, -⟩ := (isActive_iff p i).mp active
    rw [freeSlot_isFree hi] at hr
    cases hr

theorem MotionGuarded.attachStem {p : Part} (h : MotionGuarded p) (i : Fin 8) (r : Record) :
    MotionGuarded (attachStem i r p) := by
  unfold Machine.attachStem
  dsimp only
  exact (feedAttach_guarded (p := { p.setRecord i (some r.attach) with
    length := _, diameter := _, monitor := _ }) h.asks).arm i

theorem doAttachStem_guards : Guards doAttachStem := fun args p h => h.withStem fun i r hr => by
  repeat' split
  · exact h
  · exact h
  · exact h
  · exact h
  · exact h.attachStem i r

theorem MotionGuarded.finishStem {p : Part} (h : MotionGuarded p) {i : Fin 8} {r : Record} (hr : p.recordAt i = some r) :
    MotionGuarded (finishStem i r p) := by
  unfold Machine.finishStem
  dsimp only
  split
  · exact endPeriod_guarded _
  · next idle =>
    refine h.written fun active => ?_
    obtain ⟨x, hx, state⟩ := (isActive_iff p i).mp active
    obtain rfl := Option.some.inj (hr.symm.trans hx)
    exact absurd state idle

theorem doFinishStem_guards : Guards doFinishStem := fun args p h => h.withStem fun i r hr => by
  repeat' split
  · exact h
  · exact h
  · exact h.finishStem hr

/-- A record that is not ACTIVE leaves its slot. -/
theorem MotionGuarded.retireStem {p : Part} (h : MotionGuarded p) {i : Fin 8} {r : Record} (hr : p.recordAt i = some r)
    (idle : r.state ≠ .active) : MotionGuarded (retireStem i p) := by
  refine h.retabled rfl rfl rfl fun j active => ?_
  obtain ⟨x, hx, state⟩ := (isActive_iff p j).mp active
  have other : i ≠ j := fun e => by
    subst e
    obtain rfl := Option.some.inj (hr.symm.trans hx)
    exact idle state
  exact (isActive_iff _ j).mpr ⟨x, by rw [recordAt_retireStem, if_neg other, hx], state⟩

theorem doRetireStem_guards : Guards doRetireStem := fun args p h => h.withStem fun i r hr => by
  repeat' split
  · exact h
  · exact h
  · next idle _ => exact h.retireStem hr idle

theorem doReadStem_guards : Guards doReadStem := fun _ _ h => h.withStem fun _ _ _ => h

theorem doReadEntries_guards : Guards doReadEntries := fun args p h => h.withStem fun i r _ => by
  dsimp only
  repeat' split
  · exact h
  · exact h
  · exact h

/-! ### The amendments -/

theorem doAppendEntry_guards : Guards doAppendEntry := fun args p h => h.withStem fun i r hr => by
  dsimp only
  repeat' split
  · exact h
  · exact h
  · exact h
  · exact h
  · exact (h.rewritten (r' := r.appendEntry .pending (readPlanned args 4)) hr rfl).arm i

theorem MotionGuarded.insertTaken {p : Part} (h : MotionGuarded p) {i : Fin 8} {r : Record} (hr : p.recordAt i = some r)
    (k : Nat) (st : EntryState) (plan : Planned) : MotionGuarded (insertTaken i r k st plan p) := by
  have inserted := h.rewritten (r' := r.insertEntry k st plan) hr rfl
  unfold Machine.insertTaken
  dsimp only
  split
  · exact (inserted.handOver _ _).arm i
  · exact inserted.arm i

theorem doInsertEntry_guards : Guards doInsertEntry := fun args p h => h.withStem fun i r hr => by
  dsimp only
  repeat' split
  · exact h
  · exact h
  · exact h
  · exact h
  · exact h
  · exact h
  · exact h.insertTaken hr _ _ _

theorem MotionGuarded.changeTaken {p : Part} (h : MotionGuarded p) {i : Fin 8} {r : Record} (hr : p.recordAt i = some r)
    (k : Nat) (e : Entry) (plan : Planned) : MotionGuarded (changeTaken i r k e plan p) := by
  have changed := h.rewritten (r' := r.changeEntry k plan) hr rfl
  unfold Machine.changeTaken
  dsimp only
  split
  · exact changed.handOver _ _
  · exact changed

theorem doChangeEntry_guards : Guards doChangeEntry := fun args p h => h.withStem fun i r hr => by
  dsimp only
  repeat' split
  · exact h
  · exact h
  · exact h
  · exact h
  · exact h
  · exact h.changeTaken hr _ _ _

theorem MotionGuarded.cancelTaken {p : Part} (h : MotionGuarded p) {i : Fin 8} {r : Record} (hr : p.recordAt i = some r)
    (k : Nat) (e : Entry) : MotionGuarded (cancelTaken i r k e p) := by
  have state := (armingTest_stays p (r.cancelEntry k)).1
  unfold Machine.cancelTaken
  split
  · split
    · next r' test =>
      rw [test] at state
      exact (h.rewritten hr state).handOver _ _
    · next r' a _ test =>
      rw [test] at state
      exact (h.rewritten hr state).armingHands _
  · exact h.rewritten (r' := r.cancelEntry k) hr rfl

theorem doCancelEntry_guards : Guards doCancelEntry := fun args p h => h.withStem fun i r hr => by
  dsimp only
  repeat' split
  · exact h
  · exact h
  · exact h
  · exact h
  · exact h.cancelTaken hr _ _

/-! ### Species, settings, the stored copy -/

theorem doReadSpecies_guards : Guards doReadSpecies := fun args p h => by
  unfold doReadSpecies
  repeat' split
  · exact h
  · exact h

theorem doWriteSpecies_guards : Guards doWriteSpecies := fun args p h => by
  unfold doWriteSpecies
  repeat' split
  · exact h
  · exact h
  · exact h
  · exact h

theorem doClearSpecies_guards : Guards doClearSpecies := fun args p h => by
  unfold doClearSpecies
  repeat' split
  · exact h
  · exact h
  · exact h
  · exact h

theorem doCalibrate_guards : Guards doCalibrate := fun args p h => h.withStem fun i r _ => by
  unfold calibrateEntry
  repeat' split
  · exact h
  · exact h
  · exact h
  · exact h
  · exact h
  · exact h

theorem doReadSetting_guards : Guards doReadSetting := fun args p h => by
  unfold doReadSetting
  split
  · exact h
  · exact h

theorem doWriteSetting_guards : Guards doWriteSetting := fun args p h => by
  unfold doWriteSetting
  repeat' split
  · exact h
  · exact h
  · exact h
  · exact h
  · exact h.settingTaken _ _

theorem doStore_guards : Guards doStore := fun args p h => by
  unfold doStore
  split
  · exact h
  · exact h

theorem doReset_guards : Guards doReset := fun args p h => by
  unfold doReset
  split
  · exact h
  · exact h

/-! ### Every command -/

theorem exec_guarded {c : Instr} {s s' : State} (g : MotionGuarded s.part) (h : exec c s = .next s') :
    MotionGuarded s'.part := by
  have on : ∀ f : Part → Part, s.on f = .next s' → MotionGuarded (f s.part) → MotionGuarded s'.part := by
    intro f e k
    obtain rfl := Host.Outcome.next.inj e
    exact k
  cases c with
  | powerOn straps => exact on _ h (powerUp_guarded straps _)
  | requestFrame f => exact on _ h (g.perform _ (g.requestArrives f))
  | badRequest => exact on _ h (g.perform _ g.serveBad)
  | status => exact on _ h (g.request _ _ fun _ _ k => k)
  | readConditions => exact on _ h (g.request _ _ fun _ _ k => k)
  | setMasks => exact on _ h (g.request _ _ fun _ _ k => k)
  | setProfile => exact on _ h (g.request _ _ doSetProfile_guards)
  | setFeed => exact on _ h (g.request _ _ doSetFeed_guards)
  | knifeOverride => exact on _ h (g.request _ _ doKnifeOverride_guards)
  | takeover => exact on _ h (g.request _ _ doTakeover_guards)
  | cutNow => exact on _ h (g.request _ _ doCutNow_guards)
  | openStem => exact on _ h (g.request _ _ doOpenStem_guards)
  | attachStem => exact on _ h (g.request _ _ doAttachStem_guards)
  | finishStem => exact on _ h (g.request _ _ doFinishStem_guards)
  | retireStem => exact on _ h (g.request _ _ doRetireStem_guards)
  | readStem => exact on _ h (g.request _ _ doReadStem_guards)
  | readEntries => exact on _ h (g.request _ _ doReadEntries_guards)
  | appendEntry => exact on _ h (g.request _ _ doAppendEntry_guards)
  | insertEntry => exact on _ h (g.request _ _ doInsertEntry_guards)
  | changeEntry => exact on _ h (g.request _ _ doChangeEntry_guards)
  | cancelEntry => exact on _ h (g.request _ _ doCancelEntry_guards)
  | readSpecies => exact on _ h (g.request _ _ doReadSpecies_guards)
  | writeSpecies => exact on _ h (g.request _ _ doWriteSpecies_guards)
  | clearSpecies => exact on _ h (g.request _ _ doClearSpecies_guards)
  | calibrate => exact on _ h (g.request _ _ doCalibrate_guards)
  | readSetting => exact on _ h (g.request _ _ doReadSetting_guards)
  | writeSetting => exact on _ h (g.request _ _ doWriteSetting_guards)
  | store => exact on _ h (g.request _ _ doStore_guards)
  | storeCompletion held => exact on _ h (g.perform _ (g.storeCompletes held))
  | reset => exact on _ h (g.request _ _ doReset_guards)
  | startupDeadline => exact on _ h (g.perform _ g.deadlinePasses)
  | frameTransmitted => exact on _ h (g.perform _ g.frameSent)
  | transmitError => exact on _ h (g.perform _ g.transmitFails)
  | busOffRecovery => exact on _ h (g.perform (f := leaveBusOff) _ g)
  | valveRefreshExpiry => exact on _ h (g.perform (f := buildFrame) _ g)
  | stickFrame f => exact on _ h (g.perform _ (g.stickArrives f))
  | takeoverReleaseExpiry => exact on _ h (g.perform _ g.releaseExpires)
  | advanceExpectationExpiry => exact on _ h (g.perform (f := expectationCloses) _ g)
  | wheelCount forward => exact on _ h (g.perform _ (g.wheelCounts forward))
  | rollerCount forward => exact on _ h (g.perform _ (g.rollerCounts forward))
  | wheelContactSwitch closed => exact on _ h (g.sense _ (g.contactLevel closed))
  | endSensorChange covered => exact on _ h (g.sense _ (g.endSensorLevel covered))
  | gripSampleExpiry => exact on _ h (g.perform _ g.gripSample)
  | armLineReading l x => exact on _ h (g.sense _ (g.lineReads l x))
  | lineOutOfWindowExpiry l => exact on _ h (g.perform _ (g.lineOutExpires l))
  | lineInWindowExpiry l => exact on _ h (g.perform _ (g.lineInExpires l))
  | dropTimerExpiry => exact on _ h (g.perform _ g.dropReport)
  | settleTimerExpiry => exact on _ h (g.perform _ g.settleEnds)
  | stallTimerExpiry => exact on _ h (g.perform _ g.stallOutcome)
  | barLeavesHome => exact on _ h (g.sense _ g.barLeaves)
  | endOfStroke => exact on _ h (g.sense _ g.strokeEnds)
  | barHome => exact on _ h (g.sense _ g.barHomes)
  | cutTimerExpiry => exact on _ h (g.perform _ g.cutTimesOut)
  | returnTimerExpiry => exact on _ h (g.perform _ g.returnTimesOut)
  | lossOfPower => exact on _ h g

/-- Settles O57: every command's work keeps the guard, and so does a millisecond, which moves no state. -/
theorem everyStepKeepsMotionGuarded : Obligations.EveryStepKeepsMotionGuarded := by
  intro s s' guarded h
  unfold step at h
  split at h
  · unfold idle at h
    split at h
    · exact exec_guarded guarded h
    · obtain rfl := Host.Outcome.next.inj h
      exact guarded.millisecond
  · next c rest _ => exact exec_guarded (s := { s with pending := rest }) guarded h

end Sys2Proof.Machine
end

section
namespace Sys2Proof.Machine

/-! ### The decision table row by row (05 R98, R99) -/

/-- Rows 1 and 2: no record ACTIVE, or no working profile. -/
theorem decision_workless {p : Part} (h : p.hasActive = false ∨ p.monitor.profile.works = false) : p.decision = .idle := by
  unfold Part.decision
  split
  · rfl
  · next r hr =>
    rcases h with none_ | off
    · rw [hasActive_isSome, hr] at none_
      cases none_
    · exact if_pos off

/-- Rows 3 to 12, with a record ACTIVE in a working profile. -/
theorem decision_working {p : Part} {r : Record} (hr : p.activeRecord = some r) (works : p.monitor.profile.works = true) :
    p.decision = if p.monitor.takeover.inForce then .manual else
      match p.feed.value with
      | .idle => .idle
      | .grip => .grip
      | .run => p.decideRun r := by
  unfold Part.decision
  rw [hr]
  exact if_neg (by rw [works]; nofun)

/-- Rows 8 to 12: the value RUN, no stall-out, the saw PARKED and no hold. -/
theorem decideRun_free {p : Part} {r : Record} (stall : p.feed.stallOut = false) (parked : p.saw.state = .parked)
    (hold : p.diameter.hold = false) : p.decideRun r =
      if r.reference = .none then
        if p.monitor.profile = .fellProcess ∧ r.felled = false then .grip
        else if p.feed.seekSpent then .grip
        else .seek
      else if p.feed.held = none then .grip
      else p.placement := by
  simp [Part.decideRun, stall, parked, hold]

/-- The three outcomes of the placement test of an entry at a position, the first that holds (05 R99). -/
theorem placement_rows {p : Part} {e : HeldEntry} {pos : Int} (he : p.feed.held = some e) (hp : p.logMm = some pos) :
    (e.target - p.setting 9 ≤ pos → p.placement = .settle)
      ∧ (pos < e.target - p.setting 9 → e.target - p.speciesValue (·.approachDist) ≤ pos → p.placement = .approach)
      ∧ (pos < e.target - p.setting 9 → pos < e.target - p.speciesValue (·.approachDist) → p.placement = .feed) := by
  rw [placement_of he hp]
  refine ⟨fun there => if_pos there, fun short near => ?_, fun short far => ?_⟩
  · rw [if_neg (Int.not_le.mpr short), if_pos near]
  · rw [if_neg (Int.not_le.mpr short), if_neg (Int.not_le.mpr far)]

theorem recoveryCheck_succeeds {p : Part} (state : p.feed.state = .recover .forward) (h : p.recoverySucceeds = true) :
    recoveryCheck p = enterFeed p.placement p := if_pos ⟨state, h⟩

/-- Settles O15: deciding afresh is the table's state entered with the request withdrawn; each row is read off the table. -/
theorem decisionTableRows : Obligations.DecisionTableRows := by
  intro p
  refine ⟨feedDecide_state p, rfl, fun state succeeds => ?_, fun e pos he hp => placement_rows he hp, decision_workless,
    fun r hr works => ?_⟩
  · rw [recoveryCheck_succeeds state succeeds, enterFeed_state]
  rw [decision_working hr works]
  refine ⟨fun taken => if_pos taken, fun free => ?_⟩
  rw [free]
  refine ⟨fun value => by rw [value]; rfl, fun value => by rw [value]; rfl, fun value => ?_⟩
  rw [value]
  refine ⟨fun stall => if_pos stall, fun stall out => ?_, fun stall parked hold => ?_, fun stall parked hold => ?_⟩
  · simp [Part.decideRun, stall, out]
  · simp [Part.decideRun, stall, parked, hold]
  have row := decideRun_free (r := r) stall parked hold
  simp only [Bool.false_eq_true, if_false]
  rw [row]
  refine ⟨fun unreferenced fells unfelled => ?_, fun unreferenced spent => ?_, fun unreferenced mayServe unspent => ?_,
    fun referenced none_ => ?_, fun referenced some_ => ?_⟩
  · rw [if_pos unreferenced, if_pos ⟨fells, unfelled⟩]
  · rw [if_pos unreferenced, if_pos spent, ite_self]
  · rw [if_pos unreferenced, if_neg, unspent]
    · rfl
    · rintro ⟨fells, unfelled⟩
      rcases mayServe with other | felled
      · exact other fells
      · rw [felled] at unfelled
        cases unfelled
  · rw [if_neg referenced, if_pos none_]
  · rw [if_neg referenced, if_neg some_]

end Sys2Proof.Machine
end

section
namespace Sys2Proof.Machine

/-! ### The end of an event that restarts the part (09 R187, R188) -/

/-- The part that start-up leaves once its event is over: READY at once where no line is enabled. -/
def Part.started (p : Part) : Part :=
  { startUp p with boot := if (startUp p).linesReady then { Boot.reset with ready := true, elapsed := none } else .reset }

theorem startUp_activeSlot (p : Part) : (startUp p).activeSlot = none := by
  rcases h : (startUp p).activeSlot with _ | i
  · rfl
  · obtain ⟨r, hr, -⟩ := (isActive_iff _ i).mp (activeSlot_isActive h)
    rw [recordAt_of_reset rfl] at hr
    cases hr

theorem startUp_hasActive (p : Part) : (startUp p).hasActive = false := by rw [Part.hasActive, startUp_activeSlot]; rfl

theorem startUp_knife (p : Part) : (startUp p).nextKnife = .reset := by
  have state : (startUp p).knifeState = .opened := by
    unfold Part.knifeState
    rw [startUp_hasActive]
    rfl
  unfold Part.nextKnife Part.knifePressure
  rw [state]
  rfl

/-- A saw as it restarts demands what the reset image says (10 R200). -/
theorem startUp_image (p : Part) : (startUp p).nextImage = (startUp p).link.image := by
  unfold Part.nextImage
  rw [startUp_knife]
  unfold startUp Saw.reset
  rcases p.pins.homeClosed
  · rfl
  · rfl

theorem startUp_sendsValve (p : Part) : (startUp p).sendsValve = false := by
  show (p.powered && false && !false) = false
  simp

/-- Where the part has restarted the end of the event leaves no more to do than READY. -/
theorem conclude_startUp (b p : Part) : concludeRest b (holdTest (startUp p)) = p.started := by
  have gone : (startUp p).stemGone = false := by rw [Part.stemGone, startUp_hasActive]; rfl
  have slips : (startUp p).slipRuns = false := by rw [Part.slipRuns, startUp_hasActive, Bool.and_false]
  rw [holdTest_idle (holdPasses_of_noEntry rfl), concludeRest_eq, gone, slips, startUp_knife, startUp_image, startUp_sendsValve]
  rfl

/-- No line is OK as it starts, so the lines are ready where none is enabled (04 R78, R80). -/
theorem startUp_linesReady (p : Part) : (startUp p).linesReady = [Line.ka, .kb, .rl].all fun l => !(startUp p).lineEnabled l := by
  have qualifies : ∀ l, (startUp p).line l = p.startLine l := fun l => by cases l <;> rfl
  unfold Part.linesReady
  refine congrArg (List.all _) (funext fun l => ?_)
  rw [qualifies, Part.startLine]
  split <;> exact Bool.or_false _

theorem started_restarted (p : Part) : Restarted p p.started := by
  refine ⟨rfl, rfl, rfl, rfl, rfl, rfl, rfl, rfl, ?_, ?_, rfl, rfl, rfl, rfl, rfl, rfl, rfl, rfl⟩
  · unfold Part.started
    dsimp only
    split <;> rfl
  · refine Eq.trans ?_ (startUp_linesReady p)
    unfold Part.started
    dsimp only
    split
    · next ready => exact ready.symm
    · next waits => exact (Bool.eq_false_iff.mpr waits).symm

/-- The part whose working copy a RESET keeps or replaces by the built-in defaults (09 R187). -/
def Part.restocked (k : ResetKind) (p : Part) : Part :=
  { p with store := { p.store with working := if k = .normal then p.store.working else .builtIn } }

theorem resetEffect_eq (k : ResetKind) (p : Part) : resetEffect k p = startUp (p.restocked k) := by
  cases k
  · rfl
  · rfl

/-- What has restarted over the same pins has restarted from here. -/
theorem Restarted.of_pins {p x q : Part} (h : Restarted x q) (pins : x.pins = p.pins) : Restarted p q := by
  unfold Restarted at *
  rw [← pins]
  exact h

/-- A RESET that bus-off releases: the part restarts over the working copy or the built-in defaults (09 R187, 10 R201). -/
theorem conclude_resetTaken (b : Part) {p x : Part} {k : ResetKind} (pending : x.boot.resetPending = some k)
    (off : x.link.busOff = true) (powered : x.powered = p.powered) (pins : x.pins = p.pins) (store : x.store = p.store) :
    ResetTaken k p (conclude b x) := by
  have released : resetInBusOff x = resetEffect k x := by
    unfold resetInBusOff
    rw [pending]
    exact if_pos off
  rw [conclude_eq, released, resetEffect_eq, conclude_startUp]
  exact ⟨(started_restarted (x.restocked k)).of_pins pins, powered, rfl, rfl, by rw [← store]; rfl⟩

end Sys2Proof.Machine
end

section
namespace Sys2Proof.Machine

/-! ### TRANSMIT_ERROR (10 R201) -/

/-- The part with the error count 8 higher. -/
def Part.erred (p : Part) : Part := { p with link := { p.link with errors := p.link.errors + 8 } }

/-- The part whose link has just entered bus-off, its feed not yet told. -/
def Part.cutOff (p : Part) : Part :=
  { p.erred with link := { p.erred.link with sendList := [], valve := none, refresh := none, busOff := true } }

theorem Quiet.erred {p : Part} (h : Quiet p) : Quiet p.erred :=
  ⟨h.pending, h.holds, h.drop, h.slip, h.ready, h.knife, h.image, h.refresh, h.list⟩

theorem transmitFails_counts {p : Part} (h : p.link.errors + 8 ≤ 255) : transmitFails p = p.erred :=
  if_neg (Nat.not_lt.mpr h)

theorem transmitFails_cutsOff {p : Part} (h : 255 < p.link.errors + 8) : transmitFails p = feedSetValue .grip p.cutOff := if_pos h

/-- With the value GRIP the table claims no stem and stalls none (05 R98). -/
theorem decision_gripped {p : Part} (value : p.feed.value = .grip) :
    p.decision = .idle ∨ p.decision = .manual ∨ p.decision = .grip := by
  rcases hr : p.activeRecord with _ | r
  · exact .inl (decision_workless (.inl (by rw [hasActive_isSome, hr]; rfl)))
  · rw [decision_grip hr value]
    split_ifs
    · exact .inl rfl
    · exact .inr (.inl rfl)
    · exact .inr (.inr rfl)

/-- From `p` to `x` the part has set the value GRIP of its own accord, at work on a stem or not (05 R95, R96). -/
structure Gripped (p x : Part) : Prop where
  link : x.link = p.link
  pendingDirect : x.feed.pendingDirect = false
  unasked : x.feed.unasked
  holds : x.holdPasses = false
  decided : p.feed.cutTaken = false → x.feed.state = x.decision
  taken : p.feed.cutTaken = true → x.feed.state = .cutWait ∧ x.feed.request = p.feed.request

theorem feedSetValue_gripped (p : Part) : Gripped p (feedSetValue .grip p) := by
  rcases cut : p.feed.cutTaken
  · rw [feedSetValue_stops (by simp) cut]
    have rests := decision_gripped (p := p.valued .grip) rfl
    exact {
      link := feedDecide_link (by rcases rests with h | h | h <;> simp [h])
      pendingDirect := feedDecide_pendingDirect _
      unasked := feedDecide_unasked _
      holds := holdPasses_of_state (feedDecide_state _) (by rcases rests with h | h | h <;> simp [h])
        (by rcases rests with h | h | h <;> simp [h])
      decided := fun _ => decides_state _
      taken := fun h => by rw [cut] at h; cases h }
  · rw [feedSetValue_taken (by simp) cut]
    obtain ⟨state, k, request⟩ := p.feed.cutTaken_iff.mp cut
    exact {
      link := rfl
      pendingDirect := rfl
      unasked := withdraw_unasked p.feed
      holds := holdPasses_of_state (p := p.valued .grip) state (by simp) (by simp)
      decided := fun h => by rw [cut] at h; cases h
      taken := fun _ => ⟨state, by simp [Part.valued, Feed.withdraw, request]⟩ }

/-- In bus-off the end of an event sends nothing (10 R201). -/
theorem conclude_silent (b : Part) {p : Part} (pend : p.boot.resetPending = none ∨ p.link.busOff = false)
    (holds : p.holdPasses = false) (off : p.link.busOff = true) :
    (conclude b p).link.sendList = [] ∧ (conclude b p).link.valve = p.link.valve ∧ (conclude b p).link.refresh = none := by
  have silent : p.sendsValve = false := by rw [Part.sendsValve, off, Bool.not_true, Bool.and_false]
  rw [conclude_eq, resetInBusOff_idle pend, holdTest_idle holds, concludeRest_eq, silent, off]
  refine ⟨rfl, ?_, rfl⟩
  dsimp only
  exact if_neg fun sends => Bool.false_ne_true sends.1

/-- Settles O35: up to 255 only the count moves; above, `Gripped` is what bus-off does to the feed, and `conclude_silent` or a
released reset ends the event. -/
theorem transmitErrorLeadsToBusOff : Obligations.TransmitErrorLeadsToBusOff := by
  intro s hs on
  have quiet := hs.quiet on
  have run : ∀ q, s.part.link.busOff = false → conclude s.part (transmitFails s.part) = q → Runs .transmitError s q :=
    fun q onBus e => runs_on (f := fun p => perform (!p.link.busOff) transmitFails p) rfl
      ((perform_on on (by rw [onBus]; rfl)).trans e)
  have only := feedSetValue_feedOnly .grip s.part.cutOff
  refine ⟨fun off => runs_on (f := fun p => perform (!p.link.busOff) transmitFails p) rfl (perform_off (by rw [off]; rfl)),
    fun onBus few => run _ onBus ?_, fun onBus many unpending => ?_, fun k onBus many pending => ?_⟩
  · rw [transmitFails_counts few]
    exact quiet.erred.conclude_self s.part rfl rfl
  · have grips := feedSetValue_gripped s.part.cutOff
    set x := feedSetValue .grip s.part.cutOff with hx
    have pend : x.boot.resetPending = none ∨ x.link.busOff = false := .inl (by rw [only.boot]; exact unpending)
    have off : x.link.busOff = true := by rw [grips.link]; rfl
    obtain ⟨feed, conditions⟩ := conclude_unheld s.part pend grips.holds
    obtain ⟨list, valve, refresh⟩ := conclude_silent s.part pend grips.holds off
    have follows := conclude_follows s.part pend
    refine ⟨_, run _ onBus (by rw [transmitFails_cutsOff many]), ?_, ?_, list, ?_, refresh, ?_, ?_, ?_, fun taken => ?_,
      fun free => ?_, ?_, ?_⟩
    · exact follows.busOff.trans off
    · rw [follows, grips.link]; rfl
    · rw [valve, grips.link]; rfl
    · rw [feed]; exact feedSetValue_value .grip _
    · rw [feed]; exact grips.pendingDirect
    · rw [feed]; exact grips.unasked
    · rw [feed]; exact grips.taken taken
    · exact conclude_decides s.part pend (grips.decided free)
    · rw [conditions, grips.link]; rfl
    · exact Follows.trans (q := s.part.cutOff) rfl (only.follows.trans follows)
  · refine ⟨_, run _ onBus (by rw [transmitFails_cutsOff many]), conclude_resetTaken s.part ?_ ?_ only.powered only.pins only.store⟩
    · rw [only.boot]; exact pending
    · rw [only.busOff]; rfl

end Sys2Proof.Machine
end

section
namespace Sys2Proof.Machine

/-! ### STALL_TIMER_EXPIRY (05 R108, R109) -/

/-- The placement test reads of the feed no more than the held entry (05 R99). -/
theorem FeedOnly.placement {p q : Part} (only : FeedOnly p q) (held : q.feed.held = p.feed.held) : q.placement = p.placement := by
  have h : q.placement = Part.placement { p with feed := { p.feed with held := q.feed.held } } := by
    rw [only]
    rfl
  rw [h, held]

/-- The success of a recovery is read off the held entry and the stall point (05 R111). -/
theorem FeedOnly.recoverySucceeds {p q : Part} (only : FeedOnly p q) (held : q.feed.held = p.feed.held)
    (stallPoint : q.feed.stallPoint = p.feed.stallPoint) : q.recoverySucceeds = p.recoverySucceeds := by
  have h : q.recoverySucceeds = Part.recoverySucceeds { p with feed := { p.feed with
      held := q.feed.held, stallPoint := q.feed.stallPoint } } := by
    rw [only]
    rfl
  rw [h, held, stallPoint]

/-- The part whose feed has counted a stall, at the point where it is found (05 R109). -/
def Part.stallCounted (p : Part) : Part :=
  { p with feed := { p.feed with attempts := p.feed.attempts + 1, stallPoint := some p.length.head } }

theorem stallFound_eq (p : Part) : stallFound p =
    enterFeed (if p.setting 13 < (p.feed.attempts + 1 : Nat) then .stalled else .recover .back) p.stallCounted := rfl

/-- The states in which a stall starts a recovery or ends the attempts (05 R109). -/
def FeedState.pushes (st : FeedState) : Prop := st = .feed ∨ st = .approach ∨ st = .recover .forward

theorem stallOutcome_pushes {p : Part} (h : p.feed.state.pushes) : stallOutcome p = stallFound p := by
  unfold stallOutcome
  rcases h with h | h | h <;> rw [h]

/-- A stall beyond RECOVERY_ATTEMPTS is a stall-out (05 R109, R112). -/
theorem stallFound_out {p : Part} (h : p.feed.state.pushes) (spent : p.setting 13 < (p.feed.attempts + 1 : Nat)) :
    stallFound p = raise .stall { p.stallCounted with
      feed := p.stallCounted.feed.enter .stalled p.length.head
      length := { p.length with creep := p.stallCounted.creepOnEntry .stalled } } := by
  have moves : FeedState.stalled ≠ p.feed.state := fun e => by rcases h with h | h | h <;> rw [h] at e <;> cases e
  rw [stallFound_eq, if_pos spent, enterFeed]
  exact (if_neg moves).trans (if_pos rfl)

/-- A stall within RECOVERY_ATTEMPTS starts a recovery, back first (05 R109, R110). -/
theorem stallFound_back {p : Part} (more : (p.feed.attempts + 1 : Nat) ≤ p.setting 13) :
    stallFound p = enterFeed (.recover .back) p.stallCounted := by
  rw [stallFound_eq, if_neg (Int.not_lt.mpr more)]

/-- The part whose recovery has gone FORWARD. -/
def Part.pushed (p : Part) : Part := enterFeed (.recover .forward) p

theorem pushed_succeeds (p : Part) : p.pushed.recoverySucceeds = p.recoverySucceeds :=
  (enterFeed_feedOnly _ p).recoverySucceeds (enterFeed_held _ p) (enterFeed_recover _ p).2

theorem recoverForward_stays {p : Part} (h : p.recoverySucceeds = false) : recoverForward p = p.pushed :=
  if_neg fun k => by
    rw [← pushed_succeeds] at h
    exact Bool.false_ne_true (h.symm.trans k.2)

/-- A recovery that already succeeds goes straight to its placement (log 23). -/
theorem recoverForward_places {p : Part} (h : p.recoverySucceeds = true) : recoverForward p = enterFeed p.placement p.pushed := by
  have place : p.pushed.placement = p.placement := (enterFeed_feedOnly _ p).placement (enterFeed_held _ p)
  rw [← place]
  exact if_pos ⟨enterFeed_state _ p, (pushed_succeeds p).trans h⟩

theorem recoveryCheck_keeps (p : Part) :
    (recoveryCheck p).feed.held = p.feed.held ∧ (recoveryCheck p).feed.corrections = p.feed.corrections := by
  unfold recoveryCheck
  split
  · exact ⟨enterFeed_held _ p, enterFeed_corrections _ p⟩
  · exact ⟨rfl, rfl⟩

/-- Whatever a stall leads to, held entry and correction count stay. -/
theorem stallOutcome_keeps (p : Part) :
    (stallOutcome p).feed.held = p.feed.held ∧ (stallOutcome p).feed.corrections = p.feed.corrections := by
  have found : (stallFound p).feed.held = p.feed.held ∧ (stallFound p).feed.corrections = p.feed.corrections :=
    ⟨enterFeed_held _ p.stallCounted, enterFeed_corrections _ p.stallCounted⟩
  unfold stallOutcome
  split
  · exact found
  · exact found
  · exact found
  · obtain ⟨held, corrections⟩ := recoveryCheck_keeps p.pushed
    exact ⟨held.trans (enterFeed_held _ p), corrections.trans (enterFeed_corrections _ p)⟩
  · exact ⟨enterFeed_held .settle p, enterFeed_corrections .settle p⟩
  · exact ⟨feedDecide_held _, feedDecide_corrections _⟩
  all_goals exact ⟨rfl, rfl⟩

section StallAtEnd
variable (b : Part) {p : Part} (pend : p.boot.resetPending = none ∨ p.link.busOff = false)
include pend

theorem stallOutcome_pending :
    (stallOutcome p).boot.resetPending = none ∨ (stallOutcome p).link.busOff = false := by
  rw [(stallOutcome_feedOnly p).boot, (stallOutcome_feedOnly p).busOff]
  exact pend

/-- An outcome that neither feeds nor approaches stands at the end of the event. -/
theorem stallOutcome_stands {x : Part} {st : FeedState} (eq : stallOutcome p = x) (state : x.feed.state = st) (hf : st ≠ .feed)
    (ha : st ≠ .approach) :
    (conclude b (stallOutcome p)).feed = x.feed ∧ (conclude b (stallOutcome p)).link.conditions = x.link.conditions := by
  have pend' := stallOutcome_pending pend
  rw [eq] at pend' ⊢
  exact conclude_unheld b pend' (holdPasses_of_state state hf ha)

theorem conclude_stalledOut (pushes : p.feed.state.pushes) (spent : p.setting 13 < (p.feed.attempts + 1 : Nat)) :
    let q := conclude b (stallOutcome p)
    q.feed.state = .stalled ∧ q.feed.attempts = p.feed.attempts + 1 ∧ q.feed.stallPoint = some p.length.head
      ∧ q.feed.stallOut = true ∧ q.raised .stall = true ∧ RaisesOnly [.stall] p q := by
  have eq := (stallOutcome_pushes pushes).trans (stallFound_out pushes spent)
  obtain ⟨feed, conditions⟩ := stallOutcome_stands (st := .stalled) b pend eq rfl (by simp) (by simp)
  refine ⟨?_, ?_, ?_, ?_, ?_, ?_⟩
  · rw [feed]; rfl
  · rw [feed]; rfl
  · rw [feed]; rfl
  · rw [feed]; exact Bool.or_true _
  · rw [Part.raised, conditions]
    exact (raised_raise .stall .stall _).trans (by simp)
  · exact RaisesOnly.trans ((RaisesOnly.of_conditions rfl).trans (.of_raise (by simp) _)) (.of_conditions conditions)

theorem conclude_recovers (pushes : p.feed.state.pushes) (more : (p.feed.attempts + 1 : Nat) ≤ p.setting 13) :
    let q := conclude b (stallOutcome p)
    q.feed.state = .recover .back ∧ q.feed.attempts = p.feed.attempts + 1 ∧ q.feed.stallPoint = some p.length.head
      ∧ q.link.conditions = p.link.conditions := by
  have eq := (stallOutcome_pushes pushes).trans (stallFound_back more)
  obtain ⟨feed, conditions⟩ := stallOutcome_stands b pend eq (enterFeed_state _ _) (by simp) (by simp)
  obtain ⟨attempts, stallPoint⟩ := enterFeed_recover .back p.stallCounted
  refine ⟨?_, ?_, ?_, ?_⟩
  · rw [feed]; exact enterFeed_state _ _
  · rw [feed]; exact attempts
  · rw [feed]; exact stallPoint
  · rw [conditions, enterFeed_link (by simp)]; rfl

theorem conclude_pushed (back : p.feed.state = .recover .back) (fails : p.recoverySucceeds = false) :
    let q := conclude b (stallOutcome p)
    q.feed.state = .recover .forward ∧ q.feed.attempts = p.feed.attempts ∧ q.feed.stallPoint = p.feed.stallPoint
      ∧ q.link.conditions = p.link.conditions := by
  have eq : stallOutcome p = p.pushed := by
    unfold stallOutcome
    rw [back]
    exact recoverForward_stays fails
  obtain ⟨feed, conditions⟩ := stallOutcome_stands b pend eq (enterFeed_state _ _) (by simp) (by simp)
  obtain ⟨attempts, stallPoint⟩ := enterFeed_recover .forward p
  refine ⟨?_, ?_, ?_, ?_⟩
  · rw [feed]; exact enterFeed_state _ _
  · rw [feed]; exact attempts
  · rw [feed]; exact stallPoint
  · rw [conditions, Part.pushed, enterFeed_link (by simp)]

theorem conclude_placed (back : p.feed.state = .recover .back) (succeeds : p.recoverySucceeds = true) :
    let q := conclude b (stallOutcome p)
    (∀ ph, q.feed.state ≠ .recover ph) ∧ q.feed.attempts = 0 ∧ RaisesOnly [.diamReject, .stall] p q
      ∧ (q.diameter.hold = false → q.feed.state = p.placement) := by
  have eq : stallOutcome p = enterFeed p.placement p.pushed := by
    unfold stallOutcome
    rw [back]
    exact recoverForward_places succeeds
  have pend' := stallOutcome_pending pend
  have works := (enterFeed_works (.recover .forward) p).trans (enterFeed_works p.placement p.pushed)
  rw [eq] at pend' ⊢
  set x := enterFeed p.placement p.pushed with hx
  have state : x.feed.state = p.placement := enterFeed_state _ _
  have attempts : x.feed.attempts = 0 := enterFeed_placement_attempts _ (enterFeed_state _ _) (placement_still p).1
  have feed := conclude_feed b pend'
  refine ⟨fun ph => ?_, ?_, (works.mono (by simp [feedRaises])).raises.trans (conclude_raises b pend'), fun free => ?_⟩
  · rcases passes : x.holdPasses
    · rw [(conclude_unheld b pend' passes).1, state]
      rcases placement_cases p with h | h | h | h <;> rw [h] <;> nofun
    · rw [feed, holdTest_state passes]
      obtain ⟨still, -⟩ := decision_held (p := { x with diameter := { x.diameter with hold := true } }) rfl
      intro recovers
      rw [recovers] at still
      cases ph <;> cases still
  · rw [feed]
    exact holdTest_attempts_zero attempts
  · have hold := conclude_hold b pend'
    rw [free] at hold
    obtain ⟨-, passes⟩ := (Bool.or_eq_false_iff).mp hold.symm
    rw [(conclude_unheld b pend' passes).1, state]

theorem conclude_settlesAsItLies {h : Heading} (corrects : p.feed.state = .correct h) :
    let q := conclude b (stallOutcome p)
    q.feed.state = .settle ∧ q.feed.cutAsLies = true ∧ q.feed.settle = some 0 ∧ q.link.conditions = p.link.conditions := by
  have eq : stallOutcome p = correctionStalls p := by
    unfold stallOutcome
    rw [corrects]
  obtain ⟨feed, conditions⟩ := stallOutcome_stands b pend eq (enterFeed_state .settle p) (by simp) (by simp)
  have moves : FeedState.settle ≠ p.feed.state := by rw [corrects]; nofun
  refine ⟨?_, ?_, ?_, ?_⟩
  · rw [feed]; exact enterFeed_state .settle p
  · rw [feed]; rfl
  · rw [feed]
    show (enterFeed .settle p).feed.settle = some 0
    rw [enterFeed_feed, if_neg moves]
    rfl
  · rw [conditions]
    exact congrArg Link.conditions (enterFeed_link (by simp) p)

theorem conclude_seekEnded (seeks : p.feed.state = .seek) :
    let q := conclude b (stallOutcome p)
    q.feed.seekSpent = true ∧ q.feed.state = q.decision ∧ q.raised .noEnd = true
      ∧ RaisesOnly [.noEnd, .stall, .diamReject] p q := by
  have eq : stallOutcome p = seekEnds p := by
    unfold stallOutcome
    rw [seeks]
  have pend' := stallOutcome_pending pend
  rw [eq] at pend' ⊢
  obtain ⟨decides, spent, noEnd⟩ := seekEnds_decides p
  have ends := conclude_raises b pend'
  refine ⟨?_, conclude_decides b pend' decides, ?_, ?_⟩
  · rw [conclude_feed b pend', holdTest_seekSpent]
    exact spent
  · rw [(ends .noEnd).2 (by simp [endRaises, feedRaises])]
    exact noEnd
  · exact ((seekEnds_works p).raises.mono (by simp [travelRaises, feedRaises])).trans (ends.mono (by simp [endRaises, feedRaises]))

end StallAtEnd

/-- Settles O48: each outcome of `stallOutcome`, by the state it is found in, seen over the end of the event. -/
theorem stallOutcomeByState : Obligations.StallOutcomeByState := by
  intro s hs on
  have quiet := hs.quiet on
  have pend := quiet.pending
  have pend' := stallOutcome_pending pend
  refine ⟨fun none_ => runs_on (f := fun p => perform p.feed.watch.isSome stallOutcome p) rfl (perform_off (by rw [none_]; rfl)),
    fun some_ => ?_⟩
  obtain ⟨held, corrections⟩ := stallOutcome_keeps s.part
  have feed := conclude_feed s.part pend'
  refine ⟨_, runs_on (f := fun p => perform p.feed.watch.isSome stallOutcome p) rfl
      (perform_on on (Option.isSome_iff_ne_none.mpr some_)),
    (stallOutcome_feedOnly s.part).follows.trans (conclude_follows s.part pend'), ?_, ?_,
    fun pushes => ⟨conclude_stalledOut s.part pend pushes, conclude_recovers s.part pend pushes⟩,
    conclude_pushed s.part pend, conclude_placed s.part pend, fun ⟨h, corrects⟩ => conclude_settlesAsItLies s.part pend corrects,
    conclude_seekEnded s.part pend⟩
  · rw [feed, holdTest_held, held]
  · rw [feed, holdTest_corrections, corrections]

end Sys2Proof.Machine
end

section
namespace Sys2Proof.Machine

/-! ### A cut start with the bar out, as the feed meets it -/

/-- The decision table with the saw out of PARKED: no row reads the records beyond whether one is ACTIVE (05 R98). -/
theorem decision_out {p : Part} (out : p.saw.state ≠ .parked) : p.decision =
    if p.hasActive = false ∨ p.monitor.profile.works = false then .idle
    else if p.monitor.takeover.inForce then .manual
    else match p.feed.value with
      | .idle => .idle
      | .grip => .grip
      | .run => if p.feed.stallOut then .stalled else .grip := by
  by_cases idle : p.hasActive = false ∨ p.monitor.profile.works = false
  · rw [if_pos idle, decision_workless idle]
  · obtain ⟨active, works⟩ := by simpa only [not_or, Bool.not_eq_false] using idle
    rw [hasActive_isSome] at active
    obtain ⟨r, hr⟩ := Option.isSome_iff_exists.mp active
    have run : p.decideRun r = if p.feed.stallOut then .stalled else .grip := by
      unfold Part.decideRun
      rw [if_pos out]
    rw [if_neg idle, decision_working hr works, run]

theorem decision_congr_out {p q : Part} (out : p.saw.state ≠ .parked) (saw : q.saw = p.saw) (active : q.hasActive = p.hasActive)
    (profile : q.monitor.profile = p.monitor.profile) (takeover : q.monitor.takeover = p.monitor.takeover)
    (value : q.feed.value = p.feed.value) (stallOut : q.feed.stallOut = p.feed.stallOut) : q.decision = p.decision := by
  rw [decision_out out, decision_out (by rw [saw]; exact out), active, profile, takeover, value, stallOut]

/-- A cut start leaves which records are ACTIVE. -/
theorem cutStart_hasActive (kind : CutKind) (p : Part) : (cutStart kind p).hasActive = p.hasActive := by
  rcases hi : p.activeSlot with _ | i
  · rw [cutStart_idle hi]
    rfl
  obtain ⟨r, hr, -⟩ := (isActive_iff p i).mp (activeSlot_isActive hi)
  by_cases href : r.reference = .none
  · rw [cutStart_reference hi hr href]
    rfl
  rcases he : p.cutEntry r kind with _ | e
  · rw [cutStart_placed hi hr href he]
    rfl
  · rw [cutStart_entry hi hr href he]
    set t := ((carrying p).setRecord i (some (r.cuts e))).bind
      { slot := i, kind, target := .entry e.ident (p.takeResults kind (some e.plan)) } with ht
    have handed : (handOver none false t).hasActive = t.hasActive := by
      unfold Part.hasActive Part.activeSlot
      exact congrArg (fun f => (slotList.find? f).isSome) (funext fun j =>
        isActive_congr (by unfold Part.recordAt; rw [handOver_table]))
    have cuts : ((carrying p).setRecord i (some (r.cuts e))).activeSlot = p.activeSlot :=
      rewritten_activeSlot (p := carrying p) (r' := r.cuts e) hr rfl
    rw [handed]
    exact congrArg Option.isSome cuts

/-- What a cut start does to a feed that claims no stem: nothing that a decision reads, but that GRIP decides afresh where the cut
takes its entry (05 R116). -/
inductive StartFed (p q : Part) : Prop
  | kept (state : q.feed.state = p.feed.state) (value : q.feed.value = p.feed.value)
      (stallOut : q.feed.stallOut = p.feed.stallOut) (request : q.feed.request = p.feed.request)
      (pendingDirect : q.feed.pendingDirect = p.feed.pendingDirect)
  | decided (grip : p.feed.state = .grip) (state : q.feed.state = q.decision) (unasked : q.feed.unasked)
      (pendingDirect : q.feed.pendingDirect = false)

theorem cutStart_fed (kind : CutKind) {p : Part} (rest : ¬p.feed.state.claims) : StartFed p (cutStart kind p) := by
  rcases hi : p.activeSlot with _ | i
  · rw [cutStart_idle hi]
    exact .kept rfl rfl rfl rfl rfl
  obtain ⟨r, hr, -⟩ := (isActive_iff p i).mp (activeSlot_isActive hi)
  by_cases href : r.reference = .none
  · rw [cutStart_reference hi hr href]
    exact .kept rfl rfl rfl rfl rfl
  rcases he : p.cutEntry r kind with _ | e
  · rw [cutStart_placed hi hr href he]
    exact .kept rfl rfl rfl rfl rfl
  rw [cutStart_entry hi hr href he, handOver_none]
  set t := ((carrying p).setRecord i (some (r.cuts e))).bind
    { slot := i, kind, target := .entry e.ident (p.takeResults kind (some e.plan)) } with ht
  by_cases grip : p.feed.state = .grip
  · rw [reacted_grip (p := t) grip]
    exact .decided grip (decides_state _) (feedDecide_unasked _) (feedDecide_pendingDirect _)
  · have still : p.feed.state = .idle ∨ p.feed.state = .seek ∨ p.feed.state = .cutWait ∨ p.feed.state = .stalled
        ∨ p.feed.state = .manual := by
      rcases state : p.feed.state <;> simp [state] at rest grip ⊢
    rw [reacted_keeps (p := t) still]
    exact .kept rfl rfl rfl rfl rfl

section CutOut
variable (kind : CutKind) {p : Part} (out : p.saw.state ≠ .parked)
include out

theorem decision_rests : ¬p.decision.claims := fun c => out (decision_claims c).1

/-- A feed that has decided with the bar out has its decision past the cut start. -/
theorem cutStart_decided (h : p.feed.state = p.decision) : (cutStart kind p).feed.state = (cutStart kind p).decision := by
  have work := cutStart_headWork kind p
  cases cutStart_fed kind (h ▸ decision_rests out) with
  | kept state value stallOut =>
    rw [state, h, decision_congr_out out (cutStart_planWork kind p).saw (cutStart_hasActive kind p) work.profile work.takeover
      value stallOut]
  | decided _ state => exact state

/-- No hold comes of a cut that starts with the bar out. -/
theorem cutStart_unheld (rest : ¬p.feed.state.claims) : (cutStart kind p).holdPasses = false := by
  have rests : ¬(cutStart kind p).feed.state.claims := by
    cases cutStart_fed kind rest with
    | kept state => rw [state]; exact rest
    | decided _ state =>
      rw [state]
      exact decision_rests (by rw [(cutStart_planWork kind p).saw]; exact out)
  refine holdPasses_of_state rfl ?_ ?_
  · exact fun e => rests (e ▸ claims_feed)
  · exact fun e => rests (e ▸ claims_approach)

end CutOut

/-! ### The saw leaves PARKED for a manual cycle, at the feed (05 R117, R105) -/

/-- The states in which the feed decides afresh as the bar leaves: those that claim the stem, and a CUT_WAIT whose request still
waits. -/
def Feed.abandons (f : Feed) : Prop := f.state.claims ∨ (f.state = .cutWait ∧ f.cutTaken = false)

theorem Feed.abandons_not {f : Feed} (h : f.state = .idle ∨ f.state = .stalled ∨ f.state = .manual ∨ f.state = .grip
    ∨ (f.state = .cutWait ∧ f.cutTaken = true)) : ¬f.abandons := by
  rintro (claims | ⟨wait, free⟩)
  · rcases h with e | e | e | e | ⟨e, -⟩ <;> simp [e] at claims
  · simp [wait, free] at h

theorem feedSawLeft_decides {p : Part} (h : p.feed.abandons) : feedSawLeft p = feedDecide p := by
  unfold feedSawLeft
  rcases h with c | ⟨wait, free⟩
  · rcases state : p.feed.state <;> simp [state] at c ⊢
  · simp [wait, free]

theorem feedSawLeft_stays {p : Part} (h : ¬p.feed.abandons) : feedSawLeft p = p := by
  unfold Feed.abandons at h
  unfold feedSawLeft
  rcases state : p.feed.state <;> simp [state] at h ⊢
  exact fun free => absurd free (by simp [h])

theorem feedSawLeft_works (p : Part) : Works feedRaises p (feedSawLeft p) := by
  by_cases h : p.feed.abandons
  · rw [feedSawLeft_decides h]
    exact feedDecide_works p
  · rw [feedSawLeft_stays h]
    exact .rfl _ p

/-! ### BAR_LEAVES_HOME -/

/-- The part with the home switch open. -/
def Part.barOut (p : Part) : Part := { p with pins := { p.pins with homeClosed := false } }

/-- The saw that the bar's leaving makes: MANUAL under an operator's cycle (06 R135, R141). -/
def Part.manualSaw (p : Part) : Saw :=
  { p.saw with
    state := .manual
    cycle := some { owner := .operator, kind := .manual, attempt := 0, cause := none, completionSeen := false
                    commanded := p.monitor.takeover.inForce || p.saw.expectation.isSome
                    fromFault := p.saw.state == .fault } }

/-- The part as its feed meets the bar's leaving. -/
def Part.leaving (p : Part) : Part := { p.barOut with saw := p.manualSaw }

theorem Quiet.barOut {p : Part} (h : Quiet p) : Quiet p.barOut :=
  ⟨h.pending, h.holds, h.drop, h.slip, h.ready, h.knife, h.image, h.refresh, h.list⟩

theorem barLeaves_begins {p : Part} (h : p.saw.state = .parked ∨ p.saw.state = .fault) :
    barLeaves p = cutStart .manual (feedSawLeft p.leaving) := if_pos h

theorem barLeaves_rests {p : Part} (h : ¬(p.saw.state = .parked ∨ p.saw.state = .fault)) : barLeaves p = p.barOut := if_neg h

section Leaves
variable {p : Part}

/-- The feed before the manual cut starts claims no stem. -/
theorem feedSawLeft_rests (p : Part) : ¬(feedSawLeft p.leaving).feed.state.claims := by
  by_cases h : p.leaving.feed.abandons
  · rw [feedSawLeft_decides h, feedDecide_state]
    exact decision_rests (by simp [Part.leaving, Part.manualSaw])
  · rw [feedSawLeft_stays h]
    exact fun c => h (.inl c)

theorem feedSawLeft_saw (p : Part) : (feedSawLeft p.leaving).saw = p.manualSaw := (feedSawLeft_feedOnly _).saw

theorem feedSawLeft_out (p : Part) : (feedSawLeft p.leaving).saw.state ≠ .parked := by
  rw [feedSawLeft_saw]
  nofun

/-- The part that the bar's leaving leaves to the end of the event. -/
def Part.left (p : Part) : Part := cutStart .manual (feedSawLeft p.leaving)

theorem left_saw (p : Part) : p.left.saw = p.manualSaw := (cutStart_planWork .manual _).saw.trans (feedSawLeft_saw p)

theorem left_unheld (p : Part) : p.left.holdPasses = false := cutStart_unheld .manual (feedSawLeft_out p) (feedSawLeft_rests p)

theorem left_started (p : Part) : CutStarted .manual p p.left := by
  have only := feedSawLeft_feedOnly p.leaving
  refine (cutStart_started .manual (feedSawLeft p.leaving)).begun ?_ ?_
  · rw [only]
    rfl
  · by_cases h : p.leaving.feed.abandons
    · rw [feedSawLeft_decides h]
      exact feedDecide_corrections _
    · rw [feedSawLeft_stays h]
      rfl

/-- A feed that abandons its work has decided, and asks no cut. -/
theorem left_decided (h : p.leaving.feed.abandons) :
    p.left.feed.state = p.left.decision ∧ p.left.feed.pendingDirect = false ∧ p.left.feed.unasked := by
  have state : (feedSawLeft p.leaving).feed.state = (feedSawLeft p.leaving).decision := by
    rw [feedSawLeft_decides h]
    exact decides_state _
  refine ⟨cutStart_decided .manual (feedSawLeft_out p) state, ?_⟩
  have unasked := feedDecide_unasked p.leaving
  have direct := feedDecide_pendingDirect p.leaving
  rw [← feedSawLeft_decides h] at unasked direct
  cases cutStart_fed .manual (feedSawLeft_rests p) with
  | kept _ _ _ request pendingDirect => exact ⟨pendingDirect.trans direct, fun k => by rw [Part.left, request]; exact unasked k⟩
  | decided _ _ unasked pendingDirect => exact ⟨pendingDirect, unasked⟩

/-- A feed that abandons nothing stays, but that GRIP decides afresh where the cut takes its entry. -/
theorem left_stays (h : ¬p.leaving.feed.abandons) :
    p.left.feed.state = p.feed.state ∨ (p.feed.state = .grip ∧ p.left.feed.state = p.left.decision) := by
  have fed := cutStart_fed .manual (feedSawLeft_rests p)
  unfold Part.left
  rw [feedSawLeft_stays h] at fed ⊢
  cases fed with
  | kept state => exact .inl state
  | decided grip state => exact .inr ⟨grip, state⟩

theorem left_works (p : Part) : Works feedRaises p p.left :=
  ((feedSawLeft_works p.leaving).trans (cutStart_works .manual _)).after rfl rfl

end Leaves

/-- Settles O49: from PARKED or FAULT the cut starts past `feedSawLeft`; the bar is out, so the end of the event brings no hold. -/
theorem barLeavesHomeBeginsAManualCycle : Obligations.BarLeavesHomeBeginsAManualCycle := by
  intro s hs on
  have quiet := hs.quiet on
  have run : Runs .barLeavesHome s (conclude s.part (barLeaves s.part)) := runs_on rfl (sense_on on)
  refine ⟨fun parked fault => ?_, fun begins => ?_⟩
  · rw [barLeaves_rests (by simp [parked, fault]), quiet.barOut.conclude_self s.part rfl rfl] at run
    exact run
  have begun : barLeaves s.part = s.part.left := barLeaves_begins begins
  have work := barLeaves_headWork s.part
  rw [begun] at run work
  have pend : s.part.left.boot.resetPending = none ∨ s.part.left.link.busOff = false := by
    rw [(left_works s.part).boot, work.busOff]
    exact quiet.pending
  have saw := left_saw s.part
  obtain ⟨feed, decision⟩ := conclude_decided s.part pend (by rw [saw]; nofun) (left_unheld s.part)
  obtain ⟨-, conditions⟩ := conclude_unheld s.part pend (left_unheld s.part)
  have follows := conclude_follows s.part pend
  refine ⟨_, run, follows.saw.trans saw, ?_, (left_started s.part).seen follows (by rw [feed]), fun moves => ?_,
    fun works free => ?_, fun wait free => ?_, fun stays => ?_, fun grip => ?_, work.concluded s.part pend,
    ((left_works s.part).raises).trans (.of_conditions conditions)⟩
  · rw [conclude_sawDemand s.part pend, saw]
    rfl
  · rw [feed, decision]
    exact (left_decided (.inl moves)).1
  · rw [feed]
    refine (left_decided ?_).2
    rcases works with moves | settles | wait
    · exact .inl (.inl moves)
    · exact .inl (.inr settles)
    · exact .inr ⟨wait, free⟩
  · rw [feed, decision]
    exact (left_decided (.inr ⟨wait, free⟩)).1
  · rw [feed]
    refine (left_stays (Feed.abandons_not ?_)).resolve_right fun ⟨grip, _⟩ => ?_
    · rcases stays with idle | stalled | manual | taken
      · exact .inl idle
      · exact .inr (.inl stalled)
      · exact .inr (.inr (.inl manual))
      · exact .inr (.inr (.inr (.inr taken)))
    · rw [grip] at stays
      simp at stays
  · rw [feed, decision]
    rcases left_stays (Feed.abandons_not (.inr (.inr (.inr (.inl grip))))) with same | ⟨_, decided⟩
    · exact .inl (same.trans grip)
    · exact .inr decided

end Sys2Proof.Machine
end

section
namespace Sys2Proof.Machine

/-! ### A taken SET PROFILE, stage by stage (08 R162) -/

/-- The part as a taken SET PROFILE sets it, before its feed decides afresh. -/
def Part.profiled (n : Profile) (p : Part) : Part :=
  { p with
    monitor := { p.monitor with profile := n, takeover := .none, stick := none }
    saw := { p.saw with expectation := none }
    knife := { p.knife with override := none }
    feed := { p.feed with
      value := p.profileValue n, seekSpent := false, stallOut := false, cutAsLies := false, pendingDirect := false
      request := .none }
    link := (releaseFrame n p).link }

theorem profileSet_eq (n : Profile) (p : Part) : profileSet n p = guidanceTest (feedDecide (p.profiled n)) := by
  have release : releaseFrame n p = { p with link := (releaseFrame n p).link } := by
    unfold releaseFrame
    split <;> rfl
  unfold profileSet feedProfile
  dsimp only
  rw [release]
  rfl

/-- The release frame is a matter of the waiting frame and its timer alone (08 R163). -/
theorem releaseFrame_valveOnly (n : Profile) (p : Part) : ValveOnly p (releaseFrame n p) := by
  unfold releaseFrame
  split <;> simp [ValveOnly]

theorem releaseFrame_built {n : Profile} {p : Part} (sends : p.sendsValve = true) (idle : n.works = false) :
    (releaseFrame n p).link.valve = some { id := p.valveId, data := releaseData } := by
  simp [releaseFrame, sends, idle]

theorem releaseFrame_unsent {n : Profile} {p : Part} (sends : p.sendsValve = false) : releaseFrame n p = p := by
  simp [releaseFrame, sends]

/-- With its value set by SET PROFILE the feed is in GRIP at work on a stem, else IDLE (08 R162). -/
theorem profiled_decision (n : Profile) (p : Part) :
    (p.profiled n).decision = if n.works && p.hasActive then .grip else .idle := by
  rcases grips : n.works && p.hasActive
  · refine decision_workless ?_
    rcases Bool.and_eq_false_iff.mp grips with idle | none_
    · exact .inr idle
    · exact .inl none_
  · have value : (p.profiled n).feed.value = .grip := if_pos grips
    rw [decision_grip_free value rfl]
    exact if_pos (Bool.and_comm n.works p.hasActive ▸ grips)

/-- The part once its feed has decided under the new profile, the guidance not yet tested. -/
def Part.reprofiled (n : Profile) (p : Part) : Part := feedDecide (p.profiled n)

section Reprofiled
variable (n : Profile) (p : Part)

theorem reprofiled_feedOnly : FeedOnly (p.profiled n) (p.reprofiled n) := feedDecide_feedOnly _

theorem reprofiled_state : (p.reprofiled n).feed.state = if n.works && p.hasActive then .grip else .idle :=
  (feedDecide_state _).trans (profiled_decision n p)

theorem reprofiled_link : (p.reprofiled n).link = (releaseFrame n p).link :=
  feedDecide_link (by rw [profiled_decision]; split_ifs <;> simp)

theorem reprofiled_request : (p.reprofiled n).feed.request = .none := by
  unfold Part.reprofiled feedDecide
  rw [enterFeed_feed]
  split
  · rfl
  · exact ite_self _

theorem reprofiled_unheld : (p.reprofiled n).holdPasses = false :=
  holdPasses_of_state (reprofiled_state n p) (by split_ifs <;> simp) (by split_ifs <;> simp)

theorem reprofiled_monitor :
    (p.reprofiled n).monitor = { p.monitor with profile := n, takeover := .none, stick := none } :=
  (reprofiled_feedOnly n p).monitor

theorem reprofiled_atTarget (plan : Planned) : (p.reprofiled n).atTarget n plan = p.atTarget n plan := by
  rw [reprofiled_feedOnly n p]
  rfl

end Reprofiled

/-! ### The guidance's test, past which nothing but its mark and its notice has changed -/

theorem Follows.with_monitor {p q : Part} (h : Follows p q) (m : Monitor) :
    Follows { p with monitor := m } { q with monitor := m } := by
  unfold Follows at *
  exact congrArg (fun x : Part => { x with monitor := m }) h

theorem guidanceTest_follows (p : Part) : Follows { p with monitor := (guidanceTest p).monitor } (guidanceTest p) := by
  unfold guidanceTest
  split
  · split
    · rfl
    · rfl
  · rfl

/-- With no window held the guidance tests nothing. -/
theorem guidanceTest_unarmed {p : Part} (h : p.monitor.guidance.window = false ∨ p.monitor.guidance.last = none) :
    guidanceTest p = p := by
  rcases h with unheld | lost
  · exact guidanceTest_idle fun k => Bool.false_ne_true (unheld.symm.trans k.2.2.1)
  · exact guidanceTest_lost (.inl lost)

theorem guidanceTest_monitor (p : Part) :
    (guidanceTest p).monitor = { p.monitor with guidance := (guidanceTest p).monitor.guidance } := by
  unfold guidanceTest
  split
  · split <;> rfl
  · rfl

/-- The guidance's test moves nothing of the guidance but its mark. -/
theorem guidanceTest_marks (p : Part) : (guidanceTest p).monitor.guidance =
    { p.monitor.guidance with announced := (guidanceTest p).monitor.guidance.announced } := by
  unfold guidanceTest
  split
  · split <;> rfl
  · rfl

/-! ### The waiting frame at the end of an event (10 R200) -/

section Frame
variable (b : Part) {x : Part} (pend : x.boot.resetPending = none ∨ x.link.busOff = false) (unheld : x.holdPasses = false)
include pend unheld

/-- Where the part sends no valve command frames the one that waits stays, and no timer runs. -/
theorem conclude_unsent (sends : x.sendsValve = false) :
    (conclude b x).link.valve = x.link.valve ∧ (conclude b x).link.refresh = none := by
  rw [conclude_eq, resetInBusOff_idle pend, holdTest_idle unheld, concludeRest_eq, sends]
  dsimp only
  exact ⟨if_neg fun h => Bool.false_ne_true h.1, rfl⟩

/-- The first frame, at the moment sending begins. -/
theorem conclude_firstFrame (sends : x.sendsValve = true) (began : b.sendsValve = false) :
    (conclude b x).link.valve = some { id := x.valveId, data := valveData (conclude b x).link.image }
      ∧ (conclude b x).link.refresh = some 0 := by
  rw [conclude_eq, resetInBusOff_idle pend, holdTest_idle unheld, concludeRest_eq, sends, began]
  dsimp only
  exact ⟨if_pos ⟨rfl, .inr rfl⟩, (if_pos rfl).trans (if_pos (.inr rfl))⟩

end Frame

theorem conclude_override (b : Part) {x : Part} (pend : x.boot.resetPending = none ∨ x.link.busOff = false) :
    (conclude b x).knife.override = x.knife.override := by
  rw [conclude_eq, resetInBusOff_idle pend, concludeRest_eq]
  show (holdTest x).knife.override = x.knife.override
  rw [(holdTest_feedOnly x).knife]

/-! ### SET PROFILE -/

/-- The results of a taken SET PROFILE (08 R162). -/
def Part.profileResults (p : Part) (n : Profile) : List Byte :=
  [n.code, (p.profileValue n).code] ++ yesNo p.monitor.takeover.inForce

/-- The part that a taken SET PROFILE leaves to the end of the event. -/
def Part.profileSent (p : Part) (tag : Byte) (rest : List (List Byte)) (n : Profile) : Part :=
  answered p.link.sendList (okAnswer 0x04 tag (p.profileResults n)) (guidanceTest ((p.handed rest).reprofiled n))

/-- Only OFF has the code 0 (11.1). -/
theorem profileOf_off {a : Nat} (h : Profile.ofCode a = some .off) : a = 0 := by
  unfold Profile.ofCode at h
  split_ifs at h with h0 h1 h2 h3
  · exact h0
  all_goals cases h

theorem setProfile_granted {s : State} {tag : Byte} {args : List Byte} {rest : List (List Byte)} {n : Profile}
    (h : s.part.granted 0x04 tag args rest) (hn : Profile.ofCode (readU8 args 0) = some n) :
    let q := conclude s.part (s.part.profileSent tag rest n)
    Runs .setProfile s q ∧ s.part.replies q (okAnswer 0x04 tag (s.part.profileResults n)) rest := by
  have tests : firstFailing [(decide (3 < readU8 args 0), AnswerCode.badArgument), (s.part.saw.state != .parked, .busy),
      (readU8 args 0 == 0 && s.part.hasActive, .inHead)] = none := h.2.2
  obtain ⟨-, parked, free, -⟩ := by simpa only [firstFailing_none] using tests
  have handled : doSetProfile args (s.part.handed rest) =
      accept (s.part.profileResults n) (guidanceTest ((s.part.handed rest).reprofiled n)) := by
    unfold doSetProfile Part.reprofiled
    rw [hn, ← profileSet_eq]
    dsimp only
    refine (if_neg ?_).trans (if_neg ?_)
    · show ¬s.part.saw.state ≠ .parked
      simpa using parked
    · rintro ⟨rfl, active⟩
      rw [profileOf_off hn, show s.part.hasActive = true from active] at free
      cases free
  exact granted_accepts h (by decide) (by decide) handled

section ProfileSent
variable {p : Part} (tag : Byte) (rest : List (List Byte)) (n : Profile)

theorem profileSent_feed : (p.profileSent tag rest n).feed = ((p.handed rest).reprofiled n).feed := by
  rw [Part.profileSent, answered_feed, guidanceTest_feed]

theorem profileSent_unheld : (p.profileSent tag rest n).holdPasses = false := by
  refine holdPasses_of_state (st := if n.works && p.hasActive then .grip else .idle) ?_ (by split_ifs <;> simp)
    (by split_ifs <;> simp)
  rw [profileSent_feed]
  exact reprofiled_state n (p.handed rest)

/-- Past its conditions and its list the link is that of the release. -/
theorem profileSent_link : (p.profileSent tag rest n).link = { (releaseFrame n (p.handed rest)).link with
    sendList := (p.profileSent tag rest n).link.sendList, conditions := (p.profileSent tag rest n).link.conditions } := by
  have handed := congrArg Part.link (guidanceTest_handed ((p.handed rest).reprofiled n))
  dsimp only at handed
  rw [reprofiled_link] at handed
  unfold Part.profileSent answered
  dsimp only
  rw [handed]

theorem profileSent_conditions : (p.profileSent tag rest n).link.conditions = p.link.conditions := by
  rw [Part.profileSent, answered_link_conditions, guidanceTest_conditions, reprofiled_link, releaseFrame_valveOnly]
  rfl

theorem profileSent_busOff : (p.profileSent tag rest n).link.busOff = p.link.busOff := by
  rw [profileSent_link, releaseFrame_valveOnly]
  rfl

theorem profileSent_valve : (p.profileSent tag rest n).link.valve = (releaseFrame n (p.handed rest)).link.valve := by
  rw [profileSent_link]

theorem profileSent_monitor : (p.profileSent tag rest n).monitor = { p.monitor with
    profile := n, takeover := .none, stick := none, guidance := (p.profileSent tag rest n).monitor.guidance } := by
  have test := guidanceTest_monitor ((p.handed rest).reprofiled n)
  rw [reprofiled_monitor] at test
  exact test

theorem profileSent_saw : (p.profileSent tag rest n).saw = { p.saw with expectation := none } := by
  have handed := congrArg Part.saw (guidanceTest_handed ((p.handed rest).reprofiled n))
  exact handed.trans (reprofiled_feedOnly n (p.handed rest)).saw

theorem profileSent_override : (p.profileSent tag rest n).knife.override = none := by
  have handed := congrArg Part.knife (guidanceTest_handed ((p.handed rest).reprofiled n))
  exact congrArg Knife.override (handed.trans (reprofiled_feedOnly n (p.handed rest)).knife)

theorem profileSent_sendsValve : (p.profileSent tag rest n).sendsValve = (p.powered && n.works && !p.link.busOff) := by
  have powered : (p.profileSent tag rest n).powered = p.powered := by
    rw [Part.profileSent, answered_powered, (guidanceTest_headWork _).powered]
    exact (reprofiled_feedOnly n (p.handed rest)).powered
  rw [Part.sendsValve, powered, profileSent_monitor, profileSent_busOff]

theorem profileSent_follows : Follows { p.took rest with
    monitor := (p.profileSent tag rest n).monitor, saw := (p.profileSent tag rest n).saw } (p.profileSent tag rest n) := by
  have set : Follows { p.took rest with saw := (p.profileSent tag rest n).saw, monitor := ((p.handed rest).profiled n).monitor }
      ((p.handed rest).profiled n) := by
    have release := congrArg Part.link (releaseFrame_valveOnly n (p.handed rest))
    rw [profileSent_saw]
    unfold Follows Part.profiled
    rw [release]
    rfl
  have test := guidanceTest_follows ((p.handed rest).reprofiled n)
  have decided := (set.trans (reprofiled_feedOnly n (p.handed rest)).follows).with_monitor
    (guidanceTest ((p.handed rest).reprofiled n)).monitor
  exact (decided.trans test).trans (.of_answered _ _ _)

theorem profileSent_boot : (p.profileSent tag rest n).boot = p.boot := by
  rw [Part.profileSent, answered_boot, (guidanceTest_works [] _).boot]
  exact (reprofiled_feedOnly n (p.handed rest)).boot

/-! ### The guidance under the new profile (08 R164) -/

theorem profileSent_unarmed (h : p.monitor.guidance.window = false ∨ p.monitor.guidance.last = none) :
    (p.profileSent tag rest n).monitor.guidance = p.monitor.guidance := by
  have unarmed := guidanceTest_unarmed (p := (p.handed rest).reprofiled n) (by rw [reprofiled_monitor]; exact h)
  rw [Part.profileSent, answered_monitor, unarmed, reprofiled_monitor]
  rfl

theorem profileSent_marks : (p.profileSent tag rest n).monitor.guidance =
    { p.monitor.guidance with announced := (p.profileSent tag rest n).monitor.guidance.announced } := by
  have test := guidanceTest_marks ((p.handed rest).reprofiled n)
  rw [reprofiled_monitor] at test
  exact test

theorem profileSent_announced {x : Nat × Planned} (window : p.monitor.guidance.window = true)
    (last : p.monitor.guidance.last = some x) : (p.profileSent tag rest n).monitor.guidance.announced =
      (p.monitor.guidance.announced || p.atTarget n x.2) := by
  have monitor := reprofiled_monitor n (p.handed rest)
  rw [Part.profileSent, answered_monitor, guidanceTest_guidance (x := x) (by rw [monitor]; exact last) (by rw [monitor]; exact window),
    show ((p.handed rest).reprofiled n).monitor.profile = n by rw [monitor], reprofiled_atTarget, monitor]
  rfl

/-- A window in which the stem lies is announced behind the answer. -/
theorem profileSent_list {x : Nat × Planned} {pos : Int} {i : Fin 8} {r : Record} (window : p.monitor.guidance.window = true)
    (last : p.monitor.guidance.last = some x) (new : p.monitor.guidance.announced = false) (at_ : p.atTarget n x.2 = true)
    (hp : p.logMm = some pos) (hi : p.activeSlot = some i) (hr : p.recordAt i = some r) :
    (p.profileSent tag rest n).link.sendList = p.link.sendList ++ [.answer (okAnswer 0x04 tag (p.profileResults n)),
      .notice (.atTarget (p.stemId i) ((indexOf x.1 r.entries).getD 0) r.revision x.2.target x.2.minus x.2.plus pos)] := by
  obtain ⟨hprof, -, pos', hp', hc⟩ := (atTarget_iff p n x.2).mp at_
  obtain rfl := Option.some.inj (hp.symm.trans hp')
  have monitor := reprofiled_monitor n (p.handed rest)
  have only := reprofiled_feedOnly n (p.handed rest)
  have list : ((p.handed rest).reprofiled n).link.sendList = [] := by
    rw [reprofiled_link, releaseFrame_valveOnly]
    rfl
  have stem : ((p.handed rest).reprofiled n).stemId i = p.stemId i := by
    rw [only]
    rfl
  have announces := guidanceTest_announces (p := (p.handed rest).reprofiled n) (x := x) (i := i) (r := r) (pos := pos)
    (by rw [monitor]; exact hprof) (by rw [monitor]; exact last) (by rw [only]; exact hi) (by rw [only]; exact hr)
    (by rw [only]; exact hp) (by rw [monitor]; exact window) (by rw [monitor]; exact new) hc
  rw [Part.profileSent, announces, stem]
  unfold answered place
  dsimp only
  rw [list]
  rfl

end ProfileSent

/-- Settles O13: the part that `profileSet_eq` leaves is seen through the end of the event, which brings no hold. -/
theorem setProfileSetsAllInOneStep : Obligations.SetProfileSetsAllInOneStep := by
  intro s tag args rest n hs h hn
  have on : s.part.powered = true := h.1.1.1
  have quiet := hs.quiet on
  obtain ⟨run, replies⟩ := setProfile_granted h hn
  have pend : (s.part.profileSent tag rest n).boot.resetPending = none ∨ (s.part.profileSent tag rest n).link.busOff = false := by
    rw [profileSent_boot, profileSent_busOff]
    exact quiet.pending
  have unheld := profileSent_unheld tag rest n (p := s.part)
  obtain ⟨feed, conditions⟩ := conclude_unheld s.part pend unheld
  have follows := conclude_follows s.part pend
  have monitor : (conclude s.part (s.part.profileSent tag rest n)).monitor = (s.part.profileSent tag rest n).monitor := by
    rw [follows]
  have saw := follows.saw
  have named := profileSent_monitor tag rest n (p := s.part)
  have sends := profileSent_sendsValve tag rest n (p := s.part)
  have stops : n.works = false → (s.part.profileSent tag rest n).sendsValve = false := fun idle => by
    rw [sends, idle, Bool.and_false, Bool.false_and]
  rw [profileSent_feed] at feed
  refine ⟨_, run, replies, ?_, ?_, ?_, ?_, ?_, ?_, ?_, ?_, ?_, ?_, ?_, ?_, ?_, ?_, fun sent idle => ?_, fun unsent works onBus => ?_,
    fun unsent idle => ?_, ?_, ?_, fun unarmed => ?_, fun x window last => ⟨?_, fun pos hp new at_ onBus room i r hi hr => ?_⟩⟩
  · rw [monitor, named]
  · rw [monitor, named]
  · rw [monitor, named]
  · rw [saw, profileSent_saw]
  · rw [conclude_override s.part pend, profileSent_override]
  · rw [feed]; exact feedDecide_value _
  · rw [feed]; exact reprofiled_state n _
  · rw [feed]; exact feedDecide_pendingDirect _
  · rw [feed]; exact reprofiled_request n _
  · rw [feed]; exact feedDecide_seekSpent _
  · rw [feed]; exact feedDecide_marks _
  · rw [feed]; exact feedDecide_held _
  · rw [feed]; exact feedDecide_corrections _
  · rw [conditions, profileSent_conditions]
  · obtain ⟨valve, refresh⟩ := conclude_unsent s.part pend unheld (stops idle)
    exact ⟨by rw [valve, profileSent_valve]; exact releaseFrame_built sent idle, refresh⟩
  · have begins : (s.part.profileSent tag rest n).sendsValve = true := by rw [sends, on, works, onBus]; rfl
    obtain ⟨valve, refresh⟩ := conclude_firstFrame s.part pend unheld begins unsent
    have id : (s.part.profileSent tag rest n).valveId = s.part.valveId := by
      rw [profileSent_follows]
      rfl
    exact ⟨by rw [valve, id], refresh⟩
  · rw [(conclude_unsent s.part pend unheld (stops idle)).1, profileSent_valve, releaseFrame_unsent (p := s.part.handed rest) unsent]
    rfl
  · rw [monitor, saw]
    exact (profileSent_follows tag rest n).trans follows
  · rw [monitor]
    exact profileSent_marks tag rest n
  · rw [monitor]
    exact profileSent_unarmed tag rest n unarmed
  · rw [monitor]
    exact profileSent_announced tag rest n window last
  · have list := profileSent_list tag rest n window last new at_ hp hi hr
    refine (conclude_keeps_prefix s.part pend (by rw [profileSent_busOff]; exact onBus) (List.prefix_refl _) ?_).subset ?_
    · rw [list, List.length_append]
      show s.part.link.sendList.length + 2 ≤ 16
      omega
    · rw [list]
      exact List.mem_append_right _ (List.mem_cons_of_mem _ (List.mem_singleton.mpr rfl))

end Sys2Proof.Machine
end

section
namespace Sys2Proof.Machine

/-! ### The takeover monitor's events and the saw's expectation (08, 06 R140) -/

theorem hearsStick_iff (p : Part) (f : BusFrame) : p.hearsStick f = true ↔
    p.setting 38 = 1 ∧ f.id = p.stickId ∧ f.remote = false ∧ p.link.busOff = false ∧ f.data ≠ [] := by
  simp [Part.hearsStick, and_assoc]

theorem readStick_inactive_iff (b : Byte) : (readStick b).active = false ↔ b &&& 0x0F = 0 := by
  unfold StickImage.active readStick
  simp only [Bool.or_eq_false_iff, and_assoc]
  constructor
  · rintro ⟨h0, h1, h2, h3⟩
    refine BitVec.eq_of_getLsbD_eq fun i hi => ?_
    interval_cases i <;> simp [h0, h1, h2, h3, -BitVec.getLsbD_eq_getElem]
  · intro clear
    have bit : ∀ i, (b &&& 0x0F).getLsbD i = false := fun i => by rw [clear]; exact BitVec.getLsbD_zero
    exact ⟨by simpa using bit 0, by simpa using bit 1, by simpa using bit 2, by simpa using bit 3⟩

/-- A stick frame is active by the low four bits of its byte 0 (08 R165, 11 R204). -/
theorem readStick_active_iff (b : Byte) : (readStick b).active = true ↔ b &&& 0x0F ≠ 0 := by
  rw [ne_eq, ← readStick_inactive_iff, Bool.not_eq_false]

/-- The part once a stick image has been taken, the takeover not yet told (08 R165, 06 R140). -/
def Part.stickSeen (p : Part) (x : StickImage) : Part :=
  { p with
    monitor := { p.monitor with stick := some x }
    saw := { p.saw with expectation := if x.sawAdvance then some 0 else p.saw.expectation } }

/-- The part with its takeover in another state, nothing else told. -/
def Part.underTakeover (p : Part) (t : Takeover) : Part := { p with monitor := { p.monitor with takeover := t } }

theorem stickDecoded_inactive {x : StickImage} (h : x.active = false) (p : Part) :
    stickDecoded x p = { p with monitor := { p.monitor with stick := some x } } := by
  have noAdvance : x.sawAdvance = false := (Bool.or_eq_false_iff.mp h).2
  simp [stickDecoded, h, noAdvance]

theorem stickDecoded_begins {x : StickImage} (h : x.active = true) {p : Part} (none_ : p.monitor.takeover = .none) :
    stickDecoded x p = takeoverBegins (.snooped 0) (p.stickSeen x) := by
  simp [stickDecoded, h, none_, Part.stickSeen]

theorem stickDecoded_prolongs {x : StickImage} (h : x.active = true) {p : Part} {t : Nat}
    (snooped : p.monitor.takeover = .snooped t) :
    stickDecoded x p = (p.stickSeen x).underTakeover (.snooped 0) := by
  simp [stickDecoded, h, snooped, Part.stickSeen, Part.underTakeover]

theorem stickDecoded_requested {x : StickImage} (h : x.active = true) {p : Part} (requested : p.monitor.takeover = .requested) :
    stickDecoded x p = p.stickSeen x := by
  simp [stickDecoded, h, requested, Part.stickSeen]

/-! The end of an event reads neither stick image nor expectation, and of the takeover whether one is in force. -/

theorem Quiet.with_stick {p : Part} (h : Quiet p) (s : Option StickImage) (e : Option Nat) :
    Quiet { p with monitor := { p.monitor with stick := s }, saw := { p.saw with expectation := e } } :=
  ⟨h.pending, h.holds, h.drop, h.slip, h.ready, h.knife, h.image, h.refresh, h.list⟩

theorem Quiet.underTakeover {p : Part} (h : Quiet p) {t : Takeover} (same : t.inForce = p.monitor.takeover.inForce) :
    Quiet (p.underTakeover t) := by
  have state : (p.underTakeover t).knifeState = p.knifeState := by
    unfold Part.knifeState
    rw [show (p.underTakeover t).monitor.takeover.inForce = p.monitor.takeover.inForce from same]
    rfl
  have knife : (p.underTakeover t).nextKnife = p.nextKnife := by
    unfold Part.nextKnife
    rw [state]
    rfl
  have image : (p.underTakeover t).nextImage = p.nextImage := by
    unfold Part.nextImage
    rw [knife]
    rfl
  exact ⟨h.pending, h.holds, h.drop, h.slip, h.ready, h.knife.trans knife.symm, h.image.trans image.symm, h.refresh, h.list⟩

/-- Under a takeover the knives are YIELDED without a pressure, and their demand is none (07 R146, R153). -/
theorem Quiet.yielded {p : Part} (h : Quiet p) (force : p.monitor.takeover.inForce = true) :
    p.knife = { state := .yielded, pressure := none, override := p.knife.override } ∧ p.link.image.knife = .none := by
  have state : p.knifeState = .yielded := if_pos force
  have knife : p.knife = { state := .yielded, pressure := none, override := p.knife.override } :=
    h.knife.trans (by rw [Part.nextKnife, state]; rfl)
  refine ⟨knife, ?_⟩
  rw [h.imageKnife, Part.knifeDemand, knife]

end Sys2Proof.Machine
end

section
namespace Sys2Proof.Machine

/-! ### The beginning of a takeover (08 R170) -/

theorem markTakeover_marks {p : Part} {i : Fin 8} {r : Record} (hi : p.activeSlot = some i) (hr : p.recordAt i = some r) :
    markTakeover p = p.setRecord i (some { r with takeoverSeen := true }) := by
  simp only [markTakeover, hi, Part.mapRecord, hr, Option.map_some]

theorem markTakeover_none {p : Part} (h : p.hasActive = false) : markTakeover p = p := by
  have slot : p.activeSlot = none := by simpa [Part.hasActive] using h
  simp only [markTakeover, slot]

/-- The flag is a matter of the slots alone (01 R21). -/
theorem markTakeover_slots (p : Part) :
    markTakeover p = { p with table := { p.table with slots := (markTakeover p).table.slots } } := by
  unfold markTakeover
  split <;> rfl

theorem markTakeover_active (p : Part) : (markTakeover p).hasActive = p.hasActive := by
  rcases h : p.hasActive
  · rw [markTakeover_none h, h]
  · exact markTakeover_hasActive h

/-- A feed at work on a stem gives it up to MANUAL (05 R118). -/
theorem feedTakeover_manual {p : Part} (active : p.hasActive = true) (works : p.monitor.profile.works = true) :
    let q := feedTakeover p
    q.feed.state = .manual ∧ q.feed.pendingDirect = false ∧ q.feed.request = .none ∧ q.feed.stallOut = false := by
  set x : Part := { p with feed := { p.feed with pendingDirect := false, request := .none, stallOut := false } }
  have eq : feedTakeover p = enterFeed .manual x := if_pos (by rw [active, works]; rfl)
  rw [eq]
  refine ⟨enterFeed_state .manual x, enterFeed_pendingDirect .manual x, ?_, enterFeed_stallOut (by decide) x⟩
  rw [enterFeed_feed]
  split
  · rfl
  · exact ite_self _

/-- A feed without work only withdraws what it has asked for (05 R118). -/
theorem feedTakeover_withdraws {p : Part} (idle : p.hasActive = false ∨ p.monitor.profile.works = false) :
    feedTakeover p = { p with feed := p.feed.withdraw } :=
  if_neg (by rcases idle with h | h <;> simp [h])

theorem feedTakeover_keeps (p : Part) : (feedTakeover p).link = p.link ∧ (feedTakeover p).feed.held = p.feed.held
    ∧ (feedTakeover p).feed.corrections = p.feed.corrections ∧ (feedTakeover p).feed.value = p.feed.value := by
  unfold feedTakeover
  split
  · exact ⟨enterFeed_link (by decide) _, enterFeed_held .manual _, enterFeed_corrections .manual _, enterFeed_value .manual _⟩
  · exact ⟨rfl, rfl, rfl, rfl⟩

/-- The part that the feed meets as a takeover begins: takeover, saw and record are told. -/
def Part.takenOver (p : Part) (t : Takeover) : Part := markTakeover { p.underTakeover t with saw := p.saw.takeCommand }

section Begins
variable (t : Takeover) (p : Part)

theorem takenOver_eq : p.takenOver t = { p.underTakeover t with
    saw := p.saw.takeCommand, table := { p.table with slots := (p.takenOver t).table.slots } } :=
  markTakeover_slots _

/-- The ACTIVE record is marked (01 R21). -/
theorem takenOver_marks {p : Part} {i : Fin 8} {r : Record} (hi : p.activeSlot = some i) (hr : p.recordAt i = some r) :
    (p.takenOver t).table = (p.setRecord i (some { r with takeoverSeen := true })).table :=
  (congrArg Part.table (markTakeover_marks (p := { p.underTakeover t with saw := p.saw.takeCommand }) hi hr) :)

theorem takenOver_none {p : Part} (h : p.hasActive = false) : (p.takenOver t).table = p.table :=
  (congrArg Part.table (markTakeover_none (p := { p.underTakeover t with saw := p.saw.takeCommand }) h) :)

theorem takenOver_active : (p.takenOver t).hasActive = p.hasActive := markTakeover_active _

theorem takenOver_works : (p.takenOver t).monitor.profile.works = p.monitor.profile.works := by rw [takenOver_eq]; rfl

theorem takenOver_feed : (p.takenOver t).feed = p.feed := by rw [takenOver_eq]; rfl

theorem takenOver_link : (p.takenOver t).link = p.link := by rw [takenOver_eq]; rfl

theorem takeoverBegins_eq : takeoverBegins t p =
    if p.monitor.profile.works then raise .takeover (feedTakeover (p.takenOver t)) else feedTakeover (p.takenOver t) := rfl

/-- Past the record, the saw and the takeover itself, a beginning moves the feed and raises TAKEOVER. -/
theorem takeoverBegins_feedOnly : FeedOnly (p.takenOver t) (takeoverBegins t p) := by
  rw [takeoverBegins_eq]
  split
  · exact (feedTakeover_feedOnly _).trans (.of_raise _ _)
  · exact feedTakeover_feedOnly _

theorem takeoverBegins_feed : (takeoverBegins t p).feed = (feedTakeover (p.takenOver t)).feed := by
  rw [takeoverBegins_eq]
  split <;> rfl

theorem takeoverBegins_saw : (takeoverBegins t p).saw = p.saw.takeCommand := by
  rw [(takeoverBegins_feedOnly t p).saw, takenOver_eq]

theorem takeoverBegins_manual (active : p.hasActive = true) (works : p.monitor.profile.works = true) :
    let q := takeoverBegins t p
    q.feed.state = .manual ∧ q.feed.pendingDirect = false ∧ q.feed.request = .none ∧ q.feed.stallOut = false := by
  dsimp only
  rw [takeoverBegins_feed]
  exact feedTakeover_manual ((takenOver_active t p).trans active) ((takenOver_works t p).trans works)

theorem takeoverBegins_withdraws (idle : p.hasActive = false ∨ p.monitor.profile.works = false) :
    (takeoverBegins t p).feed = p.feed.withdraw := by
  rw [takeoverBegins_feed, feedTakeover_withdraws (by rwa [takenOver_active, takenOver_works]), takenOver_feed]

theorem takeoverBegins_keeps : (takeoverBegins t p).feed.held = p.feed.held
    ∧ (takeoverBegins t p).feed.corrections = p.feed.corrections ∧ (takeoverBegins t p).feed.value = p.feed.value := by
  rw [takeoverBegins_feed, ← takenOver_feed t p]
  exact (feedTakeover_keeps _).2

/-- TAKEOVER is raised in PROCESS and FELL_PROCESS, and no other condition (08 R170). -/
theorem takeoverBegins_raises : (p.monitor.profile.works = true → (takeoverBegins t p).raised .takeover = true)
    ∧ RaisesOnly (if p.monitor.profile.works then [.takeover] else []) p (takeoverBegins t p) := by
  have unraised : (feedTakeover (p.takenOver t)).link.conditions = p.link.conditions := by
    rw [(feedTakeover_keeps _).1, takenOver_link]
  rw [takeoverBegins_eq]
  split
  · exact ⟨fun _ => by simp, (RaisesOnly.of_conditions unraised).trans (.of_raise (List.mem_singleton.mpr rfl) _)⟩
  · next idle => exact ⟨fun works => absurd works idle, .of_conditions unraised⟩

/-- A beginning takeover brings no hold: the feed goes to MANUAL or keeps its state (04 R92). -/
theorem takeoverBegins_unheld (holds : p.holdPasses = false) : (takeoverBegins t p).holdPasses = false := by
  by_cases atWork : p.hasActive = true ∧ p.monitor.profile.works = true
  · exact holdPasses_of_state (takeoverBegins_manual t p atWork.1 atWork.2).1 (by decide) (by decide)
  · have diameter : (takeoverBegins t p).diameter = p.diameter := by
      rw [(takeoverBegins_feedOnly t p).diameter, takenOver_eq]
      rfl
    have idle : p.hasActive = false ∨ p.monitor.profile.works = false := by
      simpa only [not_and_or, Bool.not_eq_true] using atWork
    refine (holdPasses_congr ?_ ?_ ?_ ?_).trans holds
    · rw [diameter]
    · rw [diameter]
    · rw [diameter]
    · rw [takeoverBegins_withdraws t p idle]
      rfl

end Begins

section Begun
variable (b : Part) {p : Part} (quiet : Quiet p) (t : Takeover)
include quiet

theorem takeoverBegins_pending :
    (takeoverBegins t p).boot.resetPending = none ∨ (takeoverBegins t p).link.busOff = false := by
  have only := takeoverBegins_feedOnly t p
  rw [only.boot, only.busOff, takenOver_eq]
  exact quiet.pending

theorem conclude_takeover_follows : let q := conclude b (takeoverBegins t p)
    Follows { p with table := q.table, saw := q.saw, monitor := { p.monitor with takeover := t } } q := by
  have follows := conclude_follows b (takeoverBegins_pending quiet t)
  have only := takeoverBegins_feedOnly t p
  have told : p.takenOver t = { p with
      table := (p.takenOver t).table, saw := (p.takenOver t).saw, monitor := { p.monitor with takeover := t } } := by
    rw [takenOver_eq]
    rfl
  intro q
  rw [show q.table = (p.takenOver t).table from follows.table.trans only.table,
    show q.saw = (p.takenOver t).saw from follows.saw.trans only.saw, ← told]
  exact only.follows.trans follows

/-- A takeover begun on a quiet part is seen through the end of the event, which yields the knives. -/
theorem conclude_takeoverBegun (force : t.inForce = true) : TakeoverBegun t p (conclude b (takeoverBegins t p)) := by
  have pend := takeoverBegins_pending quiet t
  have only := takeoverBegins_feedOnly t p
  have follows := conclude_takeover_follows b quiet t
  obtain ⟨feed, conditions⟩ := conclude_unheld b pend (takeoverBegins_unheld t p quiet.holds)
  have saw : (conclude b (takeoverBegins t p)).saw = p.saw.takeCommand :=
    (conclude_follows b pend).saw.trans (takeoverBegins_saw t p)
  have table : (conclude b (takeoverBegins t p)).table = (p.takenOver t).table :=
    (conclude_follows b pend).table.trans only.table
  have override : (conclude b (takeoverBegins t p)).knife.override = p.knife.override := by
    rw [conclude_override b pend, only.knife, takenOver_eq]
    rfl
  obtain ⟨raised, raises⟩ := takeoverBegins_raises t p
  have ended := conclude_quiet b (takeoverBegins t p)
  set q := conclude b (takeoverBegins t p)
  have monitor : q.monitor = { p.monitor with takeover := t } := by rw [follows]
  obtain ⟨knife, imageKnife⟩ := ended.yielded (by rw [monitor]; exact force)
  obtain ⟨held, corrections, value⟩ := takeoverBegins_keeps t p
  have endRaises : RaisesOnly (if p.monitor.profile.works then [.takeover] else []) (takeoverBegins t p) q :=
    .of_conditions conditions
  refine ⟨by rw [monitor], ?_, imageKnife, fun active works => ?_, fun idle => ?_, ?_, ?_, ?_, fun i r hi hr => ?_, ?_,
    fun none_ => ?_, ?_, fun works => ?_, raises.trans endRaises⟩
  · rw [override] at knife
    exact knife
  · obtain ⟨state, direct, request, stallOut⟩ := takeoverBegins_manual t p active works
    rw [feed]
    refine ⟨state, direct, request, stallOut, ?_⟩
    rw [ended.imageFeed, Part.feedDemand, feed, state]
  · rw [feed, takeoverBegins_withdraws t p idle]
  · rw [feed, held]
  · rw [feed, corrections]
  · rw [feed, value]
  · have marks := table.trans (takenOver_marks t hi hr)
    refine ⟨(recordAt_of_table marks i).trans (recordAt_setRecord_self p i _), ?_⟩
    exact (setRecord_others p i _).trans (.of_table i marks)
  · rw [table, takenOver_eq]
  · exact table.trans (takenOver_none t none_)
  · rw [saw]
    unfold Saw.takeCommand
    split <;> rfl
  · rw [Part.raised, conditions]
    exact raised works

theorem conclude_takeover_expectation : (conclude b (takeoverBegins t p)).saw.expectation = p.saw.expectation := by
  rw [(conclude_follows b (takeoverBegins_pending quiet t)).saw, takeoverBegins_saw]
  unfold Saw.takeCommand
  split <;> rfl

end Begun

/-- Settles O38: a frame that is heard is `stickDecoded`; where it begins no takeover it leaves all that the end of an event
reads. -/
theorem stickFrameIsDecoded : Obligations.StickFrameIsDecoded := by
  intro f s hs on
  have quiet := hs.quiet on
  intro x heard expectation
  have hears : s.part.hearsStick f = true ↔ heard := hearsStick_iff s.part f
  have run : ∀ q, heard → conclude s.part (stickDecoded x s.part) = q → Runs (.stickFrame f) s q := fun q h e =>
    runs_on (f := fun p => perform (p.hearsStick f) (stickArrives f) p) rfl ((perform_on on (hears.mpr h)).trans e)
  have seen : Quiet (s.part.stickSeen x) := quiet.with_stick _ _
  refine ⟨⟨rfl, readStick_active_iff _⟩, fun unheard => ?_, fun h inactive => run _ h ?_, fun h active none_ => ?_,
    fun t h active snooped => run _ h ?_, fun h active requested => run _ h ?_⟩
  · have off : s.part.hearsStick f = false := Bool.eq_false_iff.mpr fun h => unheard (hears.mp h)
    exact runs_on (f := fun p => perform (p.hearsStick f) (stickArrives f) p) rfl (perform_off off)
  · rw [stickDecoded_inactive inactive]
    exact (quiet.with_stick (some x) s.part.saw.expectation).conclude_self s.part rfl rfl
  · have follows := conclude_takeover_follows s.part seen (.snooped 0)
    refine ⟨_, run _ h (by rw [stickDecoded_begins active none_]), conclude_takeoverBegun s.part seen (.snooped 0) rfl, ?_,
      conclude_takeover_expectation s.part seen _, follows⟩
    rw [follows]
    rfl
  · have prolonged : Quiet ((s.part.stickSeen x).underTakeover (.snooped 0)) :=
      seen.underTakeover (congrArg Takeover.inForce snooped).symm
    rw [stickDecoded_prolongs active snooped]
    exact prolonged.conclude_self s.part rfl rfl
  · rw [stickDecoded_requested active requested]
    exact seen.conclude_self s.part rfl rfl

end Sys2Proof.Machine
end

section
namespace Sys2Proof.Machine

/-! ### The end of a takeover (08 R171) -/

theorem releaseExpires_ends {p : Part} {t : Nat} (h : p.monitor.takeover = .snooped t) : releaseExpires p = takeoverEnds p := by
  simp only [releaseExpires, h]

theorem takeoverEnds_eq (p : Part) : takeoverEnds p = feedSetValue .grip (p.underTakeover .none) := rfl

/-- Only a snooped takeover runs a release timer (08 R167). -/
theorem timer_none {t : Takeover} (h : ∀ n, t ≠ .snooped n) : t.timer = none := by
  cases t with
  | none => rfl
  | snooped n => exact absurd rfl (h n)
  | requested => rfl

/-- No hold comes as a takeover ends, so that the end of the event changes nothing that R171 names. -/
theorem conclude_takeoverEnded {p : Part} (quiet : Quiet p) :
    let q := conclude p (takeoverEnds p)
    TakeoverEnded p q ∧ q.link.sendList = p.link.sendList
      ∧ Follows { p with monitor := { p.monitor with takeover := .none } } q := by
  obtain ⟨direct, link, state, held, corrections, holds⟩ := feedSetValue_grip (p := p.underTakeover .none) rfl
  have only := feedSetValue_feedOnly .grip (p.underTakeover .none)
  rw [takeoverEnds_eq]
  set x := feedSetValue .grip (p.underTakeover .none)
  have pend : x.boot.resetPending = none ∨ x.link.busOff = false := by
    rw [only.boot, only.busOff]
    exact quiet.pending
  obtain ⟨feed, conditions⟩ := conclude_unheld p pend holds
  have follows : Follows (p.underTakeover .none) (conclude p x) := only.follows.trans (conclude_follows p pend)
  refine ⟨⟨by rw [follows]; rfl, ?_, ?_, ?_, ?_, ?_, ?_⟩, ?_, follows⟩
  · rw [feed]; exact feedSetValue_value .grip _
  · rw [feed]; exact direct
  · rw [feed]; exact state
  · rw [feed]; exact held
  · rw [feed]; exact corrections
  · rw [conditions, link]; rfl
  · rw [conclude_eq, resetInBusOff_idle pend, holdTest_idle holds, concludeRest_eq]
    dsimp only
    rw [link]
    exact quiet.list.symm

/-- Settles O39: `conclude_takeoverEnded` is the release timer's work; the end of an event reads no expectation. -/
theorem takeoverAndExpectationRunOut : Obligations.TakeoverAndExpectationRunOut := by
  intro s hs on
  have quiet := hs.quiet on
  have release : ∀ q, perform s.part.monitor.takeover.timer.isSome releaseExpires s.part = q →
      Runs .takeoverReleaseExpiry s q :=
    fun q => runs_on (f := fun p => perform p.monitor.takeover.timer.isSome releaseExpires p) rfl
  refine ⟨fun t snooped => ⟨_, release _ ?_, conclude_takeoverEnded quiet⟩, fun unsnooped => release _ ?_,
    runs_on (f := fun p => perform p.saw.expectation.isSome expectationCloses p) rfl ?_⟩
  · rw [perform_on on (by rw [snooped]; rfl), releaseExpires_ends snooped]
  · exact perform_off (by rw [timer_none unsnooped]; rfl)
  · rcases open_ : s.part.saw.expectation with _ | t
    · rw [← open_]
      exact perform_off (by rw [open_]; rfl)
    · exact (perform_on on rfl).trans
        ((quiet.with_stick s.part.monitor.stick none).conclude_self s.part rfl rfl)

end Sys2Proof.Machine
end

section
namespace Sys2Proof.Machine

/-! ### The knife state, row by row (07 R146) -/

section Rows
variable {p : Part} (free : p.monitor.takeover.inForce = false)
include free

theorem knifeState_unattached (vacant : p.hasActive = false) : p.knifeState = .opened := by
  rw [Part.knifeState, free, if_neg Bool.false_ne_true, if_pos vacant]

variable (active : p.hasActive = true)
include active

theorem knifeState_back (feed : p.feed.state = .recover .back) : p.knifeState = .relief := by
  simp [Part.knifeState, free, active, feed]

theorem knifeState_forward (feed : p.feed.state = .recover .forward) : p.knifeState = .boost := by
  simp [Part.knifeState, free, active, feed]

/-- An idle feed leaves the stem free, but through a stroke in a profile in which the part works. -/
theorem knifeState_idle (feed : p.feed.state = .idle) : p.knifeState =
    if (p.saw.state = .advancing ∨ p.saw.state = .manual) ∧ p.monitor.profile.works then .clamped else .opened := by
  simp [Part.knifeState, free, active, feed]

theorem knifeState_otherwise (idle : p.feed.state ≠ .idle) (recover : ∀ ph, p.feed.state ≠ .recover ph) :
    p.knifeState = .clamped := by
  rw [Part.knifeState, free, active, if_neg Bool.false_ne_true, if_neg Bool.true_eq_false.mp]
  split
  next feed => exact absurd feed (recover _)
  next feed => exact absurd feed (recover _)
  next feed => exact absurd feed idle
  · rfl

end Rows

/-! ### The pressure of a knife state (07 R148, R149, R152) -/

/-- Limiting before the truncation to a whole percent, as the rules have it, and after it come to the same. -/
theorem min_hundredfold_ediv (x m : Int) : min x (m * 100) / 100 = min (x / 100) m := by omega

theorem clampPressure_eq (p : Part) : p.clampPressure =
    min (p.speciesValue (·.knifeBase) * 100 + p.speciesValue (·.knifeSlope) * ((p.currentDiameter.getD 0 : Nat) : Int))
      (min (p.speciesValue (·.knifeMax)) p.knifeLimit * 100) / 100 := (min_hundredfold_ediv _ _).symm

theorem computedPressure_boost (p : Part) : p.computedPressure .boost =
    min (p.clampPressure * (100 + p.setting 14)) (p.knifeLimit * 100) / 100 := (min_hundredfold_ediv _ _).symm

theorem clampPressure_le_limit (p : Part) : p.clampPressure ≤ p.knifeLimit := (min_le_right _ _).trans (min_le_right _ _)

/-- Half of a pressure within the limit lies within it, for the limit is no negative number. -/
theorem computedPressure_le_limit {p : Part} (limit : 0 ≤ p.knifeLimit) (k : KnifeState) :
    p.computedPressure k ≤ p.knifeLimit := by
  have clamp := clampPressure_le_limit p
  cases k with
  | relief =>
    change p.clampPressure / 2 ≤ p.knifeLimit
    omega
  | boost => exact min_le_right _ _
  | opened | yielded | clamped => exact clamp

section Pressure
variable {p : Part} {k : KnifeState}

theorem knifePressure_absent (free : k = .opened ∨ k = .yielded) : p.knifePressure k = none := by
  rcases free with rfl | rfl <;> rfl

theorem knifePressure_override {v : Int} (held : p.knife.override = some v) (opened : k ≠ .opened) (yielded : k ≠ .yielded) :
    p.knifePressure k = some (min v p.knifeLimit) := by
  cases k with
  | opened => exact absurd rfl opened
  | yielded => exact absurd rfl yielded
  | clamped | relief | boost => simp only [Part.knifePressure, held]

theorem knifePressure_computed (held : p.knife.override = none) (opened : k ≠ .opened) (yielded : k ≠ .yielded) :
    p.knifePressure k = some (p.computedPressure k) := by
  cases k with
  | opened => exact absurd rfl opened
  | yielded => exact absurd rfl yielded
  | clamped | relief | boost => simp only [Part.knifePressure, held]

theorem knifePressure_le_limit (limit : 0 ≤ p.knifeLimit) {x : Int} (pressure : p.knifePressure k = some x) :
    x ≤ p.knifeLimit := by
  by_cases free : k = .opened ∨ k = .yielded
  · rw [knifePressure_absent free] at pressure
    cases pressure
  · obtain ⟨opened, yielded⟩ := not_or.mp free
    rcases held : p.knife.override with _ | v
    · rw [knifePressure_computed held opened yielded] at pressure
      exact Option.some.inj pressure ▸ computedPressure_le_limit limit k
    · rw [knifePressure_override held opened yielded] at pressure
      exact Option.some.inj pressure ▸ min_le_right _ _

end Pressure

/-! ### The knives of a settled part -/

theorem Quiet.knifeState {p : Part} (h : Quiet p) : p.knife.state = p.knifeState := congrArg Knife.state h.knife

theorem Quiet.knifePressure {p : Part} (h : Quiet p) : p.knife.pressure = p.knifePressure p.knife.state := by
  rw [h.knifeState]
  exact congrArg Knife.pressure h.knife

/-- KNIFE_LIMIT lies between 10 and 100 % (09 R183). -/
theorem CopiesInRange.knifeLimit_nonneg {p : Part} (h : CopiesInRange p) : 0 ≤ p.knifeLimit := by
  have range : (within 10 100 p.knifeLimit && true) = true := h.1.1 34
  simp only [within, Bool.and_true, Bool.and_eq_true, decide_eq_true_eq] at range
  omega

/-- Settles O17: a settled part's knives are those of `nextKnife`, whose state goes by the rows of R146 and whose pressure is that of
its state. -/
theorem knivesFollowTheirRules : Obligations.KnivesFollowTheirRules := by
  intro p hs on range d press
  have quiet := hs.quiet on
  have state := quiet.knifeState
  have pressure := quiet.knifePressure
  have clamp : p.clampPressure = press := clampPressure_eq p
  refine ⟨fun force => congrArg Knife.state (quiet.yielded force).1, fun free => ?_, fun k => ?_, fun v held opened yielded => ?_,
    fun held => ?_, fun x hx => ?_⟩
  · rw [state]
    refine ⟨knifeState_unattached free, fun active => ⟨knifeState_back free active, knifeState_forward free active,
      fun feed stroke works => ?_, fun feed still => ?_, knifeState_otherwise free active⟩⟩
    · rw [knifeState_idle free active feed, if_pos ⟨stroke, works⟩]
    · rw [knifeState_idle free active feed, if_neg]
      rintro ⟨stroke, works⟩
      rcases still with ⟨advancing, manual⟩ | unworked
      · exact stroke.elim advancing manual
      · exact Bool.false_ne_true (unworked.symm.trans works)
  · rw [pressure, knifePressure_absent k]
  · rw [pressure, knifePressure_override held opened yielded]
  · have computed : ∀ k, p.knife.state = k → k ≠ .opened → k ≠ .yielded → p.knife.pressure = some (p.computedPressure k) :=
      fun k hk opened yielded => by rw [pressure, hk, knifePressure_computed held opened yielded]
    rw [← clamp, ← computedPressure_boost]
    exact ⟨fun k => computed _ k (by decide) (by decide), fun k => computed _ k (by decide) (by decide),
      fun k => computed _ k (by decide) (by decide)⟩
  · exact knifePressure_le_limit range.knifeLimit_nonneg (pressure.symm.trans hx)

end Sys2Proof.Machine
end

section
namespace Sys2Proof.Machine

/-! ### KNIFE OVERRIDE (07 R151) -/

/-- The override that an argument asks for: 255 is clear, any other value is that pressure. -/
def overrideArg (a : Nat) : Option Int := if a = 255 then none else some a

theorem knifeOverride_refusal {p : Part} {args : List Byte} :
    p.refusal 0x06 args = if 100 < readU8 args 0 ∧ readU8 args 0 ≠ 255 then some .badArgument else none := by
  change firstFailing [(decide (100 < readU8 args 0 ∧ readU8 args 0 ≠ 255), .badArgument)] = _
  rw [firstFailing_cons, firstFailing_nil]
  simp only [decide_eq_true_eq]

theorem doKnifeOverride_takes {args : List Byte} (p : Part) (taken : readU8 args 0 ≤ 100 ∨ readU8 args 0 = 255) :
    doKnifeOverride args p =
      accept (knifeResults (setOverride (overrideArg (readU8 args 0)) p)) (setOverride (overrideArg (readU8 args 0)) p) := by
  unfold doKnifeOverride overrideArg
  split_ifs with clear high
  · rfl
  · omega
  · rfl

/-- An event that touches of a quiet part only knives, queue and list: the knives choose anew, and beside them the end of the event
moves nothing but the list's limit and the valve command frames. -/
theorem Quiet.conclude_knife {p x : Part} (h : Quiet p)
    (eqn : x = { p with
      knife := x.knife, link := { p.link with requests := x.link.requests, sendList := x.link.sendList } }) :
    (conclude p x).knife = x.nextKnife ∧
      ValveOnly { x with
        knife := x.nextKnife
        link := { x.link with sendList := if x.link.busOff then [] else x.link.sendList.take 16 } } (conclude p x) := by
  have pend : x.boot.resetPending = none ∨ x.link.busOff = false := by rw [eqn]; exact h.pending
  have holds : x.holdPasses = false := by rw [eqn]; exact h.holds
  have ready : (!x.boot.ready && x.linesReady) = false := by rw [eqn]; exact h.ready
  have drop : x.diameter.dropTimer = if x.stemGone then some (x.diameter.dropTimer.getD 0) else none := by
    rw [eqn]; exact h.drop
  have slip : x.length.slip = if x.slipRuns then some (x.length.slip.getD { wheel := 0, roller := 0 }) else none := by
    rw [eqn]; exact h.slip
  rw [conclude_eq, resetInBusOff_idle pend, holdTest_idle holds, concludeRest_eq, ready, ← drop, ← slip]
  exact ⟨rfl, rfl⟩

section Overridden
variable {p : Part} (quiet : Quiet p) (v : Option Int)
include quiet

/-- A settled part's knives under another override: their state takes no part of it. -/
theorem setOverride_knife : (setOverride v p).knife =
    { state := p.knife.state, override := v, pressure := (setOverride v p).knife.pressure } := by
  rw [quiet.knifeState]
  rfl

theorem setOverride_pressure : (setOverride v p).knife.pressure = (setOverride v p).knifePressure p.knife.state := by
  rw [quiet.knifeState]
  rfl

theorem knifeResults_setOverride (rest : List (List Byte)) : knifeResults (setOverride v (p.handed rest)) =
    optU8 v ++ [p.knife.state.code] ++ optU8 (setOverride v p).knife.pressure := by
  rw [quiet.knifeState]
  rfl

/-- The handler leaves the knives as the end of the event chooses them. -/
theorem conclude_overridden (short : p.link.sendList.length < 16) (rest : List (List Byte)) (a : Answer) :
    let q := conclude p (answered p.link.sendList a (setOverride v (p.handed rest)))
    q.knife = (setOverride v p).knife ∧
      ValveOnly (Part.withAnswer { p with knife := (setOverride v p).knife } a rest) q := by
  have ended := quiet.conclude_knife (x := answered p.link.sendList a (setOverride v (p.handed rest))) rfl
  have list : (answered p.link.sendList a (setOverride v (p.handed rest))).link.sendList.take 16 =
      p.link.sendList ++ [.answer a] := List.take_of_length_le (List.length_append.trans_le short)
  rw [list] at ended
  exact ended

end Overridden

/-- Settles O16: a refused argument is answered by the table (O9); else the handler is `setOverride`, whose knives the end of the
event leaves (`conclude_overridden`). -/
theorem knifeOverrideRecomputesPressure : Obligations.KnifeOverrideRecomputesPressure := by
  intro s tag args rest hs offers nonempty v
  have long : argLength 0x06 args ≤ args.length := List.length_pos_iff.mpr nonempty
  have refusal : s.part.refusal 0x06 args = _ := knifeOverride_refusal
  refine ⟨fun high unclear => ?_, fun taken => ?_⟩
  · exact (requestsAnsweredByTheirTables s 0x06 tag args rest hs offers (by decide) long).1 _
      (refusal.trans (if_pos ⟨high, unclear⟩))
  · have ⟨⟨on, _, short, _⟩, _⟩ := offers
    have quiet := hs.quiet on
    have granted : s.part.granted 0x06 tag args rest := ⟨offers, long, refusal.trans (if_neg (by omega))⟩
    have handled : doKnifeOverride args (s.part.handed rest) =
        accept (knifeResults (setOverride v (s.part.handed rest))) (setOverride v (s.part.handed rest)) :=
      doKnifeOverride_takes _ taken
    clear_value v
    rw [knifeResults_setOverride quiet] at handled
    obtain ⟨run, -⟩ := granted_accepts granted (by decide) (by decide) handled
    obtain ⟨knife, only⟩ := conclude_overridden quiet v short rest _
    refine ⟨_, run, ?_⟩
    rw [knife]
    refine ⟨setOverride_knife quiet v, fun free => ?_, fun opened yielded => ?_, only⟩
    all_goals rw [setOverride_pressure quiet v]
    · exact knifePressure_absent free
    · rcases v with _ | x
      · exact knifePressure_computed (p := setOverride none s.part) rfl opened yielded
      · exact knifePressure_override (p := setOverride (some x) s.part) rfl opened yielded

end Sys2Proof.Machine
end

section
namespace Sys2Proof.Machine

/-! ### What a command comes to (log 12) -/

/-- From `p` to `q` nothing has happened, or an event whose end has been made. -/
def Concluded (p q : Part) : Prop := q = p ∨ ∃ x, q = conclude p x

theorem perform_concluded (may : Bool) (f : Part → Part) (p : Part) : Concluded p (perform may f p) := by
  unfold perform
  split
  · exact .inr ⟨f p, rfl⟩
  · exact .inl rfl

theorem sense_concluded (f : Part → Part) (pins : Pins → Pins) {p : Part} (on : p.powered = true) :
    Concluded p (sense f pins p) := .inr ⟨f p, sense_on on⟩

theorem request_concluded (code : Byte) (need : List Byte → Nat) (handler : List Byte → Part → Reply) (p : Part) :
    Concluded p (request code need handler p) := perform_concluded _ _ p

/-- Every command of a powered part but LOSS_OF_POWER is concluded against the part that it met. -/
theorem runs_concluded {c : Instr} {s : State} {q : Part} (on : s.part.powered = true) (powered : c ≠ .lossOfPower)
    (run : Runs c s q) : Concluded s.part q := by
  have row : ∀ f : Part → Part, s.on f = .next { s with part := q } → Concluded s.part (f s.part) → Concluded s.part q := by
    intro f e k
    rwa [show f s.part = q from congrArg State.part (Host.Outcome.next.inj e)] at k
  cases c with
  | lossOfPower => exact absurd rfl powered
  | powerOn straps => exact row _ run (.inr ⟨_, rfl⟩)
  | wheelContactSwitch _ | endSensorChange _ | armLineReading _ _ | barLeavesHome | endOfStroke | barHome =>
    exact row _ run (sense_concluded _ _ on)
  | status | readConditions | setMasks | setProfile | setFeed | knifeOverride | takeover | cutNow | openStem | attachStem
  | finishStem | retireStem | readStem | readEntries | appendEntry | insertEntry | changeEntry | cancelEntry | readSpecies
  | writeSpecies | clearSpecies | calibrate | readSetting | writeSetting | store | reset =>
    exact row _ run (request_concluded _ _ _ _)
  | requestFrame _ | badRequest | storeCompletion _ | startupDeadline | frameTransmitted | transmitError | busOffRecovery
  | valveRefreshExpiry | stickFrame _ | takeoverReleaseExpiry | advanceExpectationExpiry | wheelCount _ | rollerCount _
  | gripSampleExpiry | lineOutOfWindowExpiry _ | lineInWindowExpiry _ | dropTimerExpiry | settleTimerExpiry
  | stallTimerExpiry | cutTimerExpiry | returnTimerExpiry =>
    exact row _ run (perform_concluded _ _ _)

/-! ### Valve command frames (10 R200) -/

/-- A frame is built on change and as sending begins, whatever the event was: the end of the event compares the image it
leaves with the one before. -/
theorem conclude_builds (b x : Part) (sends : (conclude b x).sendsValve = true)
    (new : (conclude b x).link.image ≠ b.link.image ∨ b.sendsValve = false) :
    (conclude b x).link.valve = some { id := (conclude b x).valveId, data := valveData (conclude b x).link.image }
      ∧ (conclude b x).link.refresh = some 0 := by
  rw [conclude_eq] at sends new ⊢
  generalize holdTest (resetInBusOff x) = y at sends new ⊢
  rw [concludeRest_eq] at sends new ⊢
  exact ⟨if_pos ⟨sends, new⟩, (if_pos sends).trans (if_pos new)⟩

/-- A settled part that sends stays settled with a frame just built. -/
theorem Quiet.built {p : Part} (h : Quiet p) (sends : p.sendsValve = true) : Quiet (buildFrame p) :=
  ⟨h.pending, h.holds, h.drop, h.slip, h.ready, h.knife, h.image, fun off => absurd (sends.symm.trans off) (by decide), h.list⟩

/-- Settles O37: the refresh is `buildFrame` on a settled part; of any other command it is the end of its event that builds the
frame (`runs_concluded`, `conclude_builds`), after which no timer runs without sending. -/
theorem valveFramesOnRefreshAndOnChange : Obligations.ValveFramesOnRefreshAndOnChange := by
  intro s hs on
  have quiet := hs.quiet on
  have refresh : ∀ q, perform (s.part.link.refresh.isSome && s.part.sendsValve) buildFrame s.part = q →
      Runs .valveRefreshExpiry s q :=
    fun q => runs_on (f := fun p => perform (p.link.refresh.isSome && p.sendsValve) buildFrame p) rfl
  refine ⟨fun sends timer => refresh _ ?_, fun idle => refresh _ (perform_off ?_), fun c q powered run => ?_⟩
  · have due : (s.part.link.refresh.isSome && s.part.sendsValve) = true := by
      rw [sends, Option.isSome_iff_ne_none.mpr timer, Bool.and_self]
    exact (perform_on on due).trans ((quiet.built sends).conclude_self s.part rfl rfl)
  · rcases idle with silent | stopped
    · rw [silent, Bool.and_false]
    · rw [stopped, Option.isSome_none, Bool.false_and]
  · rcases runs_concluded on powered run with rfl | ⟨x, rfl⟩
    · refine ⟨fun sends new => ?_, quiet.refresh⟩
      rcases new with changed | silent
      · exact absurd rfl changed
      · rw [sends] at silent
        cases silent
    · exact ⟨conclude_builds s.part x, (conclude_quiet s.part x).refresh⟩

end Sys2Proof.Machine
end

section
namespace Sys2Proof.Machine

/-! ### TAKEOVER (08 R169) -/

/-- The part that a handler meets is settled with the request's own list set aside. -/
theorem Quiet.handed {p : Part} (h : Quiet p) (rest : List (List Byte)) : Quiet (p.handed rest) :=
  ⟨h.pending, h.holds, h.drop, h.slip, h.ready, h.knife, h.image, h.refresh, (ite_self []).symm⟩

/-- Where no hold comes, an answer placed before the end of an event is a matter of the send list after it. -/
theorem conclude_answer_listing (b : Part) {x : Part} (pend : x.boot.resetPending = none ∨ x.link.busOff = false)
    (unheld : x.holdPasses = false) (l : List SendItem) (a : Answer) :
    conclude b (answered l a x) = (conclude b x).listing (conclude b (answered l a x)).link.sendList := by
  have answeredUnheld : (answered l a x).holdPasses = false := unheld
  rw [conclude_eq b x, resetInBusOff_idle pend, holdTest_idle unheld, conclude_eq,
    resetInBusOff_idle (p := answered l a x) pend, holdTest_idle answeredUnheld, concludeRest_eq, concludeRest_eq]
  rfl

theorem takeoverBegins_monitor (t : Takeover) (p : Part) :
    (takeoverBegins t p).monitor = { p.monitor with takeover := t } := by
  rw [(takeoverBegins_feedOnly t p).monitor, takenOver_eq]
  rfl

theorem takeoverEnds_monitor (p : Part) : (takeoverEnds p).monitor = { p.monitor with takeover := .none } :=
  (feedSetValue_feedOnly .grip (p.underTakeover .none)).monitor

theorem takeoverResults_begun (p : Part) :
    takeoverResults (takeoverBegins .requested p) = [1, 1, stickByte p.monitor.stick] := by
  rw [takeoverResults, takeoverBegins_monitor]
  rfl

theorem takeoverResults_ended (p : Part) :
    takeoverResults (takeoverEnds p) = [0, 0xFF, stickByte p.monitor.stick] := by
  rw [takeoverResults, takeoverEnds_monitor]
  rfl

theorem takeoverResults_inForce {p : Part} (force : p.monitor.takeover.inForce = true) :
    takeoverResults p = [1, p.monitor.takeover.sourceCode, stickByte p.monitor.stick] := by
  rw [takeoverResults, force]
  rfl

theorem takeoverResults_free {p : Part} (free : p.monitor.takeover.inForce = false) :
    takeoverResults p = [0, 0xFF, stickByte p.monitor.stick] := by
  have none_ : p.monitor.takeover = .none := by
    cases h : p.monitor.takeover with
    | none => rfl
    | snooped _ | requested => rw [h] at free; cases free
  rw [takeoverResults, none_]
  rfl

/-- A granted TAKEOVER passes both tests of R169: what is left turns on its argument. -/
theorem takeover_handled {p : Part} {tag : Byte} {args : List Byte} {rest : List (List Byte)} (h : p.granted 0x07 tag args rest) :
    doTakeover args (p.handed rest) =
      if readU8 args 0 = 0 then accept (takeoverResults (takeoverRequested (p.handed rest))) (takeoverRequested (p.handed rest))
      else accept (takeoverResults (takeoverReleased (p.handed rest))) (takeoverReleased (p.handed rest)) := by
  have tests : firstFailing [(decide (1 < readU8 args 0), AnswerCode.badArgument), (p.setting 38 == 1, .wrongState)] = none :=
    h.2.2
  obtain ⟨known, unsnooped, -⟩ := by simpa only [firstFailing_none] using tests
  exact (if_neg (of_decide_eq_false known)).trans (if_neg (beq_eq_false_iff_ne.mp unsnooped))

theorem Follows.listing {p q : Part} (h : Follows p q) (l : List SendItem) : Follows p (q.listing l) :=
  congrArg (Part.listing l) h

section Ends
variable {p : Part} (quiet : Quiet p) (rest : List (List Byte)) (a : Answer)
include quiet

/-- A requested takeover is seen through the end of the request. -/
theorem takeoverRequested_end :
    let q := conclude p (answered p.link.sendList a (takeoverBegins .requested (p.handed rest)))
    TakeoverBegun .requested p q ∧ q.saw.expectation = p.saw.expectation
      ∧ Follows { p with
          table := q.table, saw := q.saw
          monitor := { p.monitor with takeover := .requested }
          link := { p.link with requests := rest } } q := by
  have handed := quiet.handed rest
  have begun := conclude_takeoverBegun p handed .requested rfl
  have follows := conclude_takeover_follows p handed .requested
  have expectation := conclude_takeover_expectation p handed .requested
  dsimp only
  rw [conclude_answer_listing p (takeoverBegins_pending handed .requested) (takeoverBegins_unheld .requested _ handed.holds)]
  exact ⟨begun, expectation, follows.listing _⟩

/-- A takeover's end is seen through the end of the request. -/
theorem takeoverReleased_end :
    let q := conclude p (answered p.link.sendList a (takeoverEnds (p.handed rest)))
    TakeoverEnded p q ∧ Follows { p with
      monitor := { p.monitor with takeover := .none }
      link := { p.link with requests := rest } } q := by
  have only := feedSetValue_feedOnly .grip ((p.handed rest).underTakeover .none)
  have unheld : (takeoverEnds (p.handed rest)).holdPasses = false := (feedSetValue_gripped _).holds
  have pend : (takeoverEnds (p.handed rest)).boot.resetPending = none ∨ (takeoverEnds (p.handed rest)).link.busOff = false := by
    rw [takeoverEnds_eq, only.boot, only.busOff]
    exact quiet.pending
  obtain ⟨ended, -, follows⟩ := conclude_takeoverEnded (quiet.handed rest)
  dsimp only
  rw [conclude_answer_listing p pend unheld]
  exact ⟨ended, follows.listing _⟩

end Ends

/-- Settles O18: the two cases that act are `takeoverBegins` and `takeoverEnds` with an answer placed, the other two
only answer. -/
theorem takeoverRequestBeginsAndEnds : Obligations.TakeoverRequestBeginsAndEnds := by
  intro s tag args rest hs granted
  have quiet := hs.quiet granted.1.1.1
  have begins : readU8 args 0 = 0 → doTakeover args (s.part.handed rest) =
      accept (takeoverResults (takeoverRequested (s.part.handed rest))) (takeoverRequested (s.part.handed rest)) :=
    fun begin_ => (takeover_handled granted).trans (if_pos begin_)
  have ends : readU8 args 0 = 1 → doTakeover args (s.part.handed rest) =
      accept (takeoverResults (takeoverReleased (s.part.handed rest))) (takeoverReleased (s.part.handed rest)) :=
    fun end_ => (takeover_handled granted).trans (if_neg (by rw [end_]; decide))
  refine ⟨fun begin_ free => ?_, fun begin_ force => ?_, fun end_ free => ?_, fun end_ force => ?_⟩
  · have acts : takeoverRequested (s.part.handed rest) = takeoverBegins .requested (s.part.handed rest) :=
      if_neg (Bool.eq_false_iff.mp free)
    have handled := begins begin_
    rw [acts, takeoverResults_begun] at handled
    obtain ⟨run, replies⟩ := granted_accepts granted (by decide) (by decide) handled
    exact ⟨_, run, replies, takeoverRequested_end quiet rest _⟩
  · have rests : takeoverRequested (s.part.handed rest) = s.part.handed rest := if_pos force
    have handled := begins begin_
    rw [rests, takeoverResults_inForce (p := s.part.handed rest) force] at handled
    exact granted_reads hs granted (by decide) handled
  · have rests : takeoverReleased (s.part.handed rest) = s.part.handed rest := if_neg (Bool.eq_false_iff.mp free)
    have handled := ends end_
    rw [rests, takeoverResults_free (p := s.part.handed rest) free] at handled
    exact granted_reads hs granted (by decide) handled
  · have acts : takeoverReleased (s.part.handed rest) = takeoverEnds (s.part.handed rest) := if_pos force
    have handled := ends end_
    rw [acts, takeoverResults_ended] at handled
    obtain ⟨run, replies⟩ := granted_accepts granted (by decide) (by decide) handled
    exact ⟨_, run, replies, takeoverReleased_end quiet rest _⟩

end Sys2Proof.Machine
end

section
namespace Sys2Proof.Machine

/-! ### What a copy's ranges come from (09 R173, R183) -/

/-- A built-in species record lies within the ranges, whether it counts as valid or not. -/
theorem Species.builtIn_inRange (valid : Bool) : (Species.builtIn valid).inRange = true := by cases valid <;> decide

/-- A setting that takes a value of its range leaves a copy within its ranges (R184). -/
theorem Copy.inRange.withSetting {c : Copy} (h : c.inRange) {n : Fin 40} {v : Int} (fits : settingInRange n v = true) :
    Copy.inRange { c with settings := c.settings.set n.val v n.isLt } := by
  refine ⟨fun m => ?_, h.2⟩
  by_cases same : n = m
  · subst same
    simpa using fits
  · have apart : n.val ≠ m.val := fun e => same (Fin.ext e)
    simpa [apart] using h.1 m

/-- A species record whose fields lie in their ranges leaves a copy within its ranges (R176, R178). -/
theorem Copy.inRange.withSpecies {c : Copy} (h : c.inRange) {k : Fin 32} {x : Species} (fits : x.inRange = true) :
    Copy.inRange { c with species := c.species.set k.val x k.isLt } := by
  refine ⟨h.1, fun m => ?_⟩
  by_cases same : k = m
  · subst same
    simpa using fits
  · have apart : k.val ≠ m.val := fun e => same (Fin.ext e)
    simpa [apart] using h.2 m

/-! ### CALIBRATE's values (R180, R181) -/

/-- The new DIAM_OFFSET is held within ±50 mm. -/
theorem steppedOffset_within (old step : Int) : within (-50) 50 (steppedOffset old step) = true := by
  have low : -50 ≤ steppedOffset old step := le_max_left _ _
  have high : steppedOffset old step ≤ 50 := max_le (by decide) (min_le_left _ _)
  rw [within, decide_eq_true low, decide_eq_true high, Bool.and_self]

/-- A record in range that takes another WHEEL_CORR and DIAM_OFFSET, both in range. -/
theorem Species.inRange_corrected {s : Species} (h : s.inRange = true) {corr offset : Int}
    (corrFits : within (-50000) 50000 corr = true) (offsetFits : within (-50) 50 offset = true) :
    Species.inRange { s with wheelCorr := corr, diamOffset := offset } = true := by
  simp only [Species.inRange, Bool.and_eq_true] at h ⊢
  tauto

/-- The two values that CALIBRATE may leave as they stand. -/
theorem Species.inRange_corrections {s : Species} (h : s.inRange = true) :
    within (-50000) 50000 s.wheelCorr = true ∧ within (-50) 50 s.diamOffset = true := by
  simp only [Species.inRange, Bool.and_eq_true] at h
  tauto

/-- Where a calibration came to a record, no test on the way has refused it. -/
theorem not_refused {test : Prop} [Decidable test] {code : AnswerCode} {rest : AnswerCode ⊕ Species} {new : Species}
    (h : (if test then .inl code else rest) = .inr new) : ¬test ∧ rest = .inr new := by
  split at h
  · cases h
  · next passes => exact ⟨passes, h⟩

/-- The length part is taken only where the limits of R180 hold. -/
theorem calibrated_corrAllowed {s new : Species} {x : Results} {l : Int} {diameter : Option Nat}
    (h : calibrated s x (some l) diameter = .inr new) : corrAllowed s.wheelCorr new.wheelCorr = true := by
  unfold calibrated at h
  dsimp only at h
  obtain ⟨-, h⟩ := not_refused h
  obtain ⟨-, h⟩ := not_refused h
  obtain ⟨outside, h⟩ := not_refused h
  obtain ⟨-, h⟩ := not_refused h
  obtain rfl := Sum.inr.inj h
  simpa using outside

/-- What a calibration derives from a record in range is in range: the correction passed the limits of R180 or stands, the offset is
held within ±50 mm or stands. -/
theorem calibrated_inRange {s new : Species} {x : Results} {length : Option Int} {diameter : Option Nat}
    (h : s.inRange = true) (taken : calibrated s x length diameter = .inr new) : new.inRange = true := by
  have cal := calibrated_spec taken
  have corr : within (-50000) 50000 new.wheelCorr = true := by
    rcases length with _ | l
    · rw [cal.lengthKept rfl]
      exact (Species.inRange_corrections h).1
    · exact (Bool.and_eq_true_iff.mp (calibrated_corrAllowed taken)).2
  have offset : within (-50) 50 new.diamOffset = true := by
    rcases diameter with _ | d
    · rw [cal.diameterKept rfl]
      exact (Species.inRange_corrections h).2
    · obtain ⟨cut, -, stepped⟩ := cal.offset d rfl
      rw [stepped]
      exact steppedOffset_within _ _
  rw [cal.eqn]
  exact Species.inRange_corrected h corr offset

end Sys2Proof.Machine
end

section
namespace Sys2Proof.Machine

/-! ### Copies in range, whatever happens to the store as a whole -/

/-- The working copy stands or is the built-in one, the stored copy stands, and it is no sounder than before. -/
theorem CopiesInRange.of_copies {p q : Part} (h : CopiesInRange p)
    (working : q.store.working = p.store.working ∨ q.store.working = .builtIn)
    (stored : q.store.stored = p.store.stored) (sound : q.store.sound = true → p.store.sound = true) : CopiesInRange q := by
  refine ⟨?_, fun s => stored ▸ h.2 (sound s)⟩
  rcases working with e | e
  · rw [e]
    exact h.1
  · rw [e]
    exact builtIn_inRange

theorem CopiesInRange.of_store {p q : Part} (h : CopiesInRange p) (store : q.store = p.store) : CopiesInRange q :=
  h.of_copies (.inl (by rw [store])) (by rw [store]) (by rw [store]; exact id)

/-- A store cut off is sound only where it was. -/
theorem Store.cutOff_sound {s : Store} (h : s.cutOff.sound = true) : s.sound = true := (Bool.and_eq_true_iff.mp h).1

theorem CopiesInRange.resetEffect {p : Part} (h : CopiesInRange p) (k : ResetKind) : CopiesInRange (resetEffect k p) :=
  h.of_copies (match k with | .normal => .inl rfl | .factory => .inr rfl) rfl Store.cutOff_sound

/-- LOSS_OF_POWER cuts a store off (R186). -/
theorem CopiesInRange.powerDown {p : Part} (h : CopiesInRange p) : CopiesInRange (powerDown p) :=
  h.of_copies (.inl rfl) rfl Store.cutOff_sound

theorem CopiesInRange.millisecond {p : Part} (h : CopiesInRange p) : CopiesInRange (millisecond p) := by
  unfold Machine.millisecond
  split
  · exact h
  · exact h

/-- A store that holds leaves the working copy as the stored one; one that fails leaves none that is sound (R186). -/
theorem CopiesInRange.storeCompletes {p : Part} (h : CopiesInRange p) (held : Bool) : CopiesInRange (storeCompletes held p) := by
  cases held
  · exact ⟨h.1, fun sound => absurd sound Bool.false_ne_true⟩
  · exact ⟨h.1, fun _ => h.1⟩

/-! ### The end of an event -/

theorem CopiesInRange.concluded {p : Part} (h : CopiesInRange p) (b : Part) : CopiesInRange (conclude b p) := by
  have released : CopiesInRange (resetInBusOff p) := by
    unfold resetInBusOff
    repeat' split
    · exact h.resetEffect _
    · exact h
    · exact h
  rw [conclude_eq, concludeRest_eq]
  exact released.of_store (holdTest_feedOnly _).store

theorem CopiesInRange.perform {f : Part → Part} {p : Part} (h : CopiesInRange p) (may : Bool) (works : CopiesInRange (f p)) :
    CopiesInRange (perform may f p) := by
  unfold Machine.perform
  split
  · exact works.concluded p
  · exact h

theorem CopiesInRange.sense {f : Part → Part} {p : Part} (h : CopiesInRange p) (pins : Pins → Pins)
    (works : (f p).store = p.store) : CopiesInRange (sense f pins p) := by
  unfold Machine.sense
  split
  · exact (h.of_store works).concluded p
  · exact h

/-! ### Power (R188) -/

/-- The part as power finds it: its straps read, the copy loaded that is sound, else the built-in one, and no frame sent yet. -/
def Part.loaded (straps : BitVec 2) (p : Part) : Part :=
  { p with
    powered := true
    pins := { p.pins with straps }
    store := { p.store.cutOff with working := if p.store.cutOff.sound then p.store.stored else .builtIn }
    link := { p.link with lastSent := none } }

theorem powerUp_eq (straps : BitVec 2) (p : Part) : powerUp straps p = conclude p
    (if p.store.cutOff.sound then startUp (p.loaded straps) else raise .storeFault (startUp (p.loaded straps))) := rfl

/-- Power loads the stored copy only where it is sound. -/
theorem CopiesInRange.loaded {p : Part} (h : CopiesInRange p) (straps : BitVec 2) : CopiesInRange (p.loaded straps) := by
  refine ⟨?_, fun sound => h.2 (Store.cutOff_sound sound)⟩
  unfold Part.loaded
  dsimp only
  split
  · next sound => exact h.2 (Store.cutOff_sound sound)
  · exact builtIn_inRange

theorem CopiesInRange.startUp {p : Part} (h : CopiesInRange p) : CopiesInRange (startUp p) :=
  h.of_copies (.inl rfl) rfl Store.cutOff_sound

theorem CopiesInRange.powerUp {p : Part} (h : CopiesInRange p) (straps : BitVec 2) : CopiesInRange (powerUp straps p) := by
  rw [powerUp_eq]
  refine CopiesInRange.concluded ?_ p
  split
  · exact (h.loaded straps).startUp
  · exact (h.loaded straps).startUp

end Sys2Proof.Machine
end

section
namespace Sys2Proof.Machine

/-! ### Handlers that leave the store -/

/-- A handler that leaves the working copy, the stored copy and a store in flight. -/
def KeepsStore (handler : List Byte → Part → Reply) : Prop := ∀ args p, (handler args p).part.store = p.store

theorem withStem_store {id : StemId} {p : Part} {k : Fin 8 → Record → Reply} (h : ∀ i r, (k i r).part.store = p.store) :
    (withStem id p k).part.store = p.store := by
  unfold withStem
  split
  · rfl
  · split
    · rfl
    · exact h _ _

theorem releaseFrame_store (n : Profile) (p : Part) : (releaseFrame n p).store = p.store := by
  unfold releaseFrame
  split <;> rfl

theorem profileSet_store (n : Profile) (p : Part) : (profileSet n p).store = p.store :=
  ((guidanceTest_headWork _).store.trans (feedProfile_feedOnly _ _).store).trans (releaseFrame_store n p)

theorem doSetProfile_store : KeepsStore doSetProfile := fun args p => by
  unfold doSetProfile
  repeat' split
  · rfl
  · rfl
  · rfl
  · exact profileSet_store _ p

theorem doSetFeed_store : KeepsStore doSetFeed := fun args p => by
  unfold doSetFeed
  repeat' split
  · rfl
  · rfl
  · rfl
  · exact (feedSetValue_feedOnly _ p).store

theorem doKnifeOverride_store : KeepsStore doKnifeOverride := fun args p => by
  unfold doKnifeOverride
  repeat' split
  · rfl
  · rfl
  · rfl

theorem takeoverEnds_store (p : Part) : (takeoverEnds p).store = p.store := (feedSetValue_feedOnly _ _).store

theorem releaseExpires_store (p : Part) : (releaseExpires p).store = p.store := by
  unfold releaseExpires
  split
  · exact takeoverEnds_store p
  · rfl
  · rfl

theorem doTakeover_store : KeepsStore doTakeover := fun args p => by
  have begins : (takeoverRequested p).store = p.store := by
    unfold takeoverRequested
    split
    · rfl
    · exact (takeoverBegins_moves _ p).2
  have ends : (takeoverReleased p).store = p.store := by
    unfold takeoverReleased
    split
    · exact takeoverEnds_store p
    · rfl
  unfold doTakeover
  repeat' split
  · rfl
  · rfl
  · exact begins
  · exact ends

theorem doCutNow_store : KeepsStore doCutNow := fun args p => by
  unfold doCutNow
  repeat' split
  · rfl
  · rfl
  · rfl
  · rfl
  · rfl
  · exact (cutNow_headWork p).store

theorem doOpenStem_store : KeepsStore doOpenStem := fun args p => by
  unfold doOpenStem
  repeat' split
  · rfl
  · rfl
  · rfl
  · rfl
  · rfl

theorem doAttachStem_store : KeepsStore doAttachStem := fun args p => withStem_store fun i r => by
  repeat' split
  · rfl
  · rfl
  · rfl
  · rfl
  · exact (arm_headWork i _).store.trans (feedAttach_feedOnly _).store

theorem finishStem_store (i : Fin 8) (r : Record) (p : Part) : (finishStem i r p).store = p.store := by
  unfold finishStem
  dsimp only
  split
  · exact (endPeriod_headWork _).store
  · rfl

theorem doFinishStem_store : KeepsStore doFinishStem := fun args p => withStem_store fun i r => by
  repeat' split
  · rfl
  · rfl
  · exact finishStem_store i r p

theorem doRetireStem_store : KeepsStore doRetireStem := fun args p => withStem_store fun i r => by
  repeat' split
  · rfl
  · rfl
  · rfl

theorem doReadStem_store : KeepsStore doReadStem := fun _ _ => withStem_store fun _ _ => rfl

theorem doReadEntries_store : KeepsStore doReadEntries := fun args p => withStem_store fun i r => by
  dsimp only
  repeat' split
  · rfl
  · rfl
  · rfl

theorem doAppendEntry_store : KeepsStore doAppendEntry := fun args p => withStem_store fun i r => by
  dsimp only
  repeat' split
  · rfl
  · rfl
  · rfl
  · rfl
  · exact (arm_headWork i _).store

theorem insertTaken_store (i : Fin 8) (r : Record) (k : Nat) (st : EntryState) (plan : Planned) (p : Part) :
    (insertTaken i r k st plan p).store = p.store := by
  refine (arm_headWork i _).store.trans ?_
  split
  · exact (handOver_headWork _ _ _).store
  · rfl

theorem doInsertEntry_store : KeepsStore doInsertEntry := fun args p => withStem_store fun i r => by
  dsimp only
  repeat' split
  · rfl
  · rfl
  · rfl
  · rfl
  · rfl
  · rfl
  · exact insertTaken_store _ _ _ _ _ p

theorem changeTaken_store (i : Fin 8) (r : Record) (k : Nat) (e : Entry) (plan : Planned) (p : Part) :
    (changeTaken i r k e plan p).store = p.store := by
  unfold changeTaken
  dsimp only
  split
  · exact (handOver_headWork _ _ _).store
  · rfl

theorem doChangeEntry_store : KeepsStore doChangeEntry := fun args p => withStem_store fun i r => by
  dsimp only
  repeat' split
  · rfl
  · rfl
  · rfl
  · rfl
  · rfl
  · exact changeTaken_store _ _ _ _ _ p

theorem cancelTaken_store (i : Fin 8) (r : Record) (k : Nat) (e : Entry) (p : Part) :
    (cancelTaken i r k e p).store = p.store := by
  unfold cancelTaken
  split
  · split
    · exact (handOver_headWork _ _ _).store
    · exact (armingHands_headWork _ _).store
  · rfl

theorem doCancelEntry_store : KeepsStore doCancelEntry := fun args p => withStem_store fun i r => by
  dsimp only
  repeat' split
  · rfl
  · rfl
  · rfl
  · rfl
  · exact cancelTaken_store _ _ _ _ p

theorem doReadSpecies_store : KeepsStore doReadSpecies := fun args p => by
  unfold doReadSpecies
  split
  · rfl
  · rfl

theorem doReadSetting_store : KeepsStore doReadSetting := fun args p => by
  unfold doReadSetting
  split
  · rfl
  · rfl

theorem doReset_store : KeepsStore doReset := fun args p => by
  unfold doReset
  split
  · rfl
  · rfl

/-! ### Events that leave the store -/

theorem CountWork.store {p q : Part} (h : CountWork p q) : q.store = p.store :=
  HeadWork.store (p := { p with draws := q.draws }) h

theorem deadlinePasses_store (p : Part) : (deadlinePasses p).store = p.store := by rw [deadlinePasses_work p]

theorem transmitFails_store (p : Part) : (transmitFails p).store = p.store := by
  unfold transmitFails
  dsimp only
  split
  · exact (feedSetValue_feedOnly _ _).store
  · rfl

theorem requestArrives_store (f : BusFrame) (p : Part) : (requestArrives f p).store = p.store := by
  unfold requestArrives
  split
  · rfl
  · rfl

theorem serveBad_store (p : Part) : (serveBad p).store = p.store := by
  unfold serveBad
  split
  · rfl
  · rfl

theorem stickArrives_store (f : BusFrame) (p : Part) : (stickArrives f p).store = p.store := by
  unfold stickArrives stickDecoded
  dsimp only
  split
  · split
    · exact (takeoverBegins_moves _ _).2
    · rfl
    · rfl
  · rfl

theorem contactLevel_store (closed : Bool) (p : Part) : (contactLevel closed p).store = p.store := by
  unfold contactLevel
  split
  · rfl
  · rfl

theorem endSensorLevel_store (covered : Bool) (p : Part) : (endSensorLevel covered p).store = p.store := by
  unfold endSensorLevel
  split
  · rfl
  · rfl

theorem lineReads_store (l : Line) (x : BitVec 12) (p : Part) : (lineReads l x p).store = p.store := by
  rw [lineReads_eq]
  rfl

theorem lineOutExpires_store (l : Line) (p : Part) : (lineOutExpires l p).store = p.store := by
  unfold lineOutExpires
  split
  · rfl
  · rfl
  · rfl

theorem lineInExpires_store (l : Line) (p : Part) : (lineInExpires l p).store = p.store := by
  unfold lineInExpires
  split
  · rfl
  · rfl
  · rfl

end Sys2Proof.Machine
end

section
namespace Sys2Proof.Machine

/-! ### Requests and copies in range -/

/-- What a handler does keeps every value within its range. -/
def KeepsRanges (handler : List Byte → Part → Reply) : Prop :=
  ∀ args p, CopiesInRange p → CopiesInRange (handler args p).part

theorem KeepsStore.keepsRanges {handler : List Byte → Part → Reply} (h : KeepsStore handler) : KeepsRanges handler :=
  fun args p k => k.of_store (h args p)

/-- A request's row keeps the ranges where its handler does: the queue and the send list are no matter of them. -/
theorem CopiesInRange.request {handler : List Byte → Part → Reply} {p : Part} (h : CopiesInRange p) (code : Byte)
    (need : List Byte → Nat) (k : KeepsRanges handler) : CopiesInRange (request code need handler p) := by
  refine h.perform _ ?_
  unfold serve
  split
  · next c tag args rest _ =>
    have screened : CopiesInRange (screen c need handler args (p.handed rest)).part := by
      unfold screen
      repeat' split
      · exact h
      · exact h
      · exact k args _ h
    exact screened
  · exact h

theorem CopiesInRange.setSpecies {p : Part} (h : CopiesInRange p) {k : Fin 32} {x : Species} (fits : x.inRange = true) :
    CopiesInRange (setSpecies k x p) := ⟨h.1.withSpecies fits, h.2⟩

/-- WRITE SPECIES tests the thirteen fields before it takes them (R176). -/
theorem doWriteSpecies_keepsRanges : KeepsRanges doWriteSpecies := fun args p h => by
  unfold doWriteSpecies
  repeat' split
  · exact h
  · exact h
  · exact h
  · next fits _ => exact h.setSpecies (by simpa using fits)

theorem doClearSpecies_keepsRanges : KeepsRanges doClearSpecies := fun args p h => by
  unfold doClearSpecies
  repeat' split
  · exact h
  · exact h
  · exact h
  · exact h.setSpecies (Species.builtIn_inRange false)

theorem CopiesInRange.calibrateEntry {p : Part} (h : CopiesInRange p) (r : Record) (x : Results) (length : Option Int)
    (diameter : Option Nat) : CopiesInRange (calibrateEntry r x length diameter p).part := by
  unfold Machine.calibrateEntry
  split
  · exact h
  · next new taken => exact h.setSpecies (calibrated_inRange (h.1.2 r.species) taken)

theorem CopiesInRange.withStem {id : StemId} {p : Part} {k : Fin 8 → Record → Reply} (h : CopiesInRange p)
    (takes : ∀ i r, CopiesInRange (k i r).part) : CopiesInRange (withStem id p k).part := by
  unfold Machine.withStem
  split
  · exact h
  · split
    · exact h
    · exact takes _ _

theorem doCalibrate_keepsRanges : KeepsRanges doCalibrate := fun args p h => h.withStem fun i r => by
  repeat' split
  · exact h
  · exact h
  · exact h
  · exact h.calibrateEntry r _ _ _
  · exact h

/-- WRITE SETTING tests the range before it takes the value (R184). -/
theorem doWriteSetting_keepsRanges : KeepsRanges doWriteSetting := fun args p h => by
  unfold doWriteSetting
  repeat' split
  · exact h
  · exact h
  · exact h
  · exact h
  · next n _ fits _ _ =>
    have written : CopiesInRange (p.withSetting n (readI16 args 1)) := ⟨h.1.withSetting (by simpa using fits), h.2⟩
    exact written.of_store (settingTaken_store n _ p)

theorem doStore_keepsRanges : KeepsRanges doStore := fun args p h => by
  unfold doStore
  split
  · exact h
  · exact h

theorem CopiesInRange.itemSent {p : Part} (h : CopiesInRange p) (i : SendItem) (rest : List SendItem) :
    CopiesInRange (itemSent i rest p) := by
  have sent : ∀ l, CopiesInRange { p with link := l } := fun _ => h
  unfold Machine.itemSent
  dsimp only
  repeat' split
  · exact (sent _).resetEffect _
  · exact h
  · exact h

theorem CopiesInRange.frameSent {p : Part} (h : CopiesInRange p) : CopiesInRange (frameSent p) := by
  have drawn : CopiesInRange { p with draws := p.draws + 1 } := h
  unfold Machine.frameSent
  dsimp only
  repeat' split
  · exact h
  · exact h
  · exact h.itemSent _ _
  · exact h
  · exact h.itemSent _ _
  · exact h
  · exact drawn.itemSent _ _

/-! ### Every command -/

/-- Every command keeps the copies in range: most leave the store; the rest are writes, the store in flight, resets
and power. -/
theorem exec_copiesInRange {c : Instr} {s s' : State} (r : CopiesInRange s.part) (h : exec c s = .next s') :
    CopiesInRange s'.part := by
  have on : ∀ f : Part → Part, s.on f = .next s' → CopiesInRange (f s.part) → CopiesInRange s'.part := by
    intro f e k
    obtain rfl := Host.Outcome.next.inj e
    exact k
  have event : ∀ (f : Part → Part) (may : Bool), (f s.part).store = s.part.store → CopiesInRange (perform may f s.part) :=
    fun f may keeps => r.perform may (r.of_store keeps)
  have reads : ∀ {handler : List Byte → Part → Reply} (code : Byte) (need : List Byte → Nat), KeepsStore handler →
      CopiesInRange (request code need handler s.part) := fun code need keeps => r.request code need keeps.keepsRanges
  cases c with
  | powerOn straps => exact on _ h (r.powerUp straps)
  | lossOfPower => exact on _ h r.powerDown
  | requestFrame f => exact on _ h (event _ _ (requestArrives_store f _))
  | badRequest => exact on _ h (event _ _ (serveBad_store _))
  | status => exact on _ h (reads _ _ fun _ _ => rfl)
  | readConditions => exact on _ h (reads _ _ fun _ _ => rfl)
  | setMasks => exact on _ h (reads _ _ fun _ _ => rfl)
  | setProfile => exact on _ h (reads _ _ doSetProfile_store)
  | setFeed => exact on _ h (reads _ _ doSetFeed_store)
  | knifeOverride => exact on _ h (reads _ _ doKnifeOverride_store)
  | takeover => exact on _ h (reads _ _ doTakeover_store)
  | cutNow => exact on _ h (reads _ _ doCutNow_store)
  | openStem => exact on _ h (reads _ _ doOpenStem_store)
  | attachStem => exact on _ h (reads _ _ doAttachStem_store)
  | finishStem => exact on _ h (reads _ _ doFinishStem_store)
  | retireStem => exact on _ h (reads _ _ doRetireStem_store)
  | readStem => exact on _ h (reads _ _ doReadStem_store)
  | readEntries => exact on _ h (reads _ _ doReadEntries_store)
  | appendEntry => exact on _ h (reads _ _ doAppendEntry_store)
  | insertEntry => exact on _ h (reads _ _ doInsertEntry_store)
  | changeEntry => exact on _ h (reads _ _ doChangeEntry_store)
  | cancelEntry => exact on _ h (reads _ _ doCancelEntry_store)
  | readSpecies => exact on _ h (reads _ _ doReadSpecies_store)
  | writeSpecies => exact on _ h (r.request _ _ doWriteSpecies_keepsRanges)
  | clearSpecies => exact on _ h (r.request _ _ doClearSpecies_keepsRanges)
  | calibrate => exact on _ h (r.request _ _ doCalibrate_keepsRanges)
  | readSetting => exact on _ h (reads _ _ doReadSetting_store)
  | writeSetting => exact on _ h (r.request _ _ doWriteSetting_keepsRanges)
  | store => exact on _ h (r.request _ _ doStore_keepsRanges)
  | storeCompletion held => exact on _ h (r.perform _ (r.storeCompletes held))
  | reset => exact on _ h (reads _ _ doReset_store)
  | startupDeadline => exact on _ h (event _ _ (deadlinePasses_store _))
  | frameTransmitted => exact on _ h (r.perform _ r.frameSent)
  | transmitError => exact on _ h (event _ _ (transmitFails_store _))
  | busOffRecovery => exact on _ h (event leaveBusOff _ rfl)
  | valveRefreshExpiry => exact on _ h (event _ _ (buildFrame_store _))
  | stickFrame f => exact on _ h (event _ _ (stickArrives_store f _))
  | takeoverReleaseExpiry => exact on _ h (event _ _ (releaseExpires_store _))
  | advanceExpectationExpiry => exact on _ h (event expectationCloses _ rfl)
  | wheelCount forward => exact on _ h (event _ _ (wheelCounts_countWork forward _).store)
  | rollerCount forward => exact on _ h (event _ _ (rollerCounts_countWork forward _).store)
  | wheelContactSwitch closed => exact on _ h (r.sense _ (contactLevel_store closed _))
  | endSensorChange covered => exact on _ h (r.sense _ (endSensorLevel_store covered _))
  | gripSampleExpiry => exact on _ h (event _ _ (gripSample_headWork _).store)
  | armLineReading l x => exact on _ h (r.sense _ (lineReads_store l x _))
  | lineOutOfWindowExpiry l => exact on _ h (event _ _ (lineOutExpires_store l _))
  | lineInWindowExpiry l => exact on _ h (event _ _ (lineInExpires_store l _))
  | dropTimerExpiry => exact on _ h (event _ _ (dropReport_headWork _).store)
  | settleTimerExpiry => exact on _ h (event _ _ (settleEnds_headWork _).store)
  | stallTimerExpiry => exact on _ h (event _ _ (stallOutcome_feedOnly _).store)
  | barLeavesHome => exact on _ h (r.sense _ (barLeaves_headWork _).store)
  | endOfStroke => exact on _ h (r.sense _ (strokeEnds_headWork _).store)
  | barHome => exact on _ h (r.sense _ (barHomes_headWork _).store)
  | cutTimerExpiry => exact on _ h (event _ _ (cutTimesOut_headWork _).store)
  | returnTimerExpiry => exact on _ h (event _ _ (returnTimesOut_headWork _).store)

/-- Settles O58: a value enters a copy past its range test, from the other copy, or from the built-in defaults; a millisecond
moves no value. -/
theorem everyStepKeepsValuesInRange : Obligations.EveryStepKeepsValuesInRange := by
  intro s s' ranges h
  unfold step at h
  split at h
  · unfold idle at h
    split at h
    · exact exec_copiesInRange ranges h
    · obtain rfl := Host.Outcome.next.inj h
      exact ranges.millisecond
  · next c rest _ => exact exec_copiesInRange (s := { s with pending := rest }) ranges h

end Sys2Proof.Machine
end

section
namespace Sys2Proof.Machine

/-! ### An unpowered part (log 7) -/

/-- From `p` to `q` nothing has changed but the levels at the pins. -/
def PinsOnly (p q : Part) : Prop := q = { p with pins := q.pins }

theorem perform_unpowered {p : Part} (off : p.powered = false) (may : Bool) (f : Part → Part) : PinsOnly p (perform may f p) := by
  unfold perform
  rw [off]
  rfl

theorem sense_unpowered {p : Part} (off : p.powered = false) (f : Part → Part) (pins : Pins → Pins) :
    PinsOnly p (sense f pins p) := by
  have level : sense f pins p = { p with pins := pins p.pins } := if_neg (by rw [off]; exact Bool.false_ne_true)
  rw [level]
  rfl

theorem request_unpowered {p : Part} (off : p.powered = false) (code : Byte) (need : List Byte → Nat)
    (handler : List Byte → Part → Reply) : PinsOnly p (request code need handler p) := perform_unpowered off _ _

/-- Settles O4: every row but power's own is a matter of `perform`, which an unpowered part leaves out, or of `sense`, which then
takes the level alone. -/
theorem unpoweredPartOnlySensesItsPins : Obligations.UnpoweredPartOnlySensesItsPins := by
  intro c s q off supply loss run
  have row : ∀ f : Part → Part, s.on f = .next { s with part := q } → PinsOnly s.part (f s.part) → PinsOnly s.part q := by
    intro f e k
    rwa [show f s.part = q from congrArg State.part (Host.Outcome.next.inj e)] at k
  cases c with
  | powerOn straps => exact absurd rfl (supply straps)
  | lossOfPower => exact absurd rfl loss
  | wheelContactSwitch _ | endSensorChange _ | armLineReading _ _ | barLeavesHome | endOfStroke | barHome =>
    exact row _ run (sense_unpowered off _ _)
  | status | readConditions | setMasks | setProfile | setFeed | knifeOverride | takeover | cutNow | openStem | attachStem
  | finishStem | retireStem | readStem | readEntries | appendEntry | insertEntry | changeEntry | cancelEntry | readSpecies
  | writeSpecies | clearSpecies | calibrate | readSetting | writeSetting | store | reset =>
    exact row _ run (request_unpowered off _ _ _)
  | requestFrame _ | badRequest | storeCompletion _ | startupDeadline | frameTransmitted | transmitError | busOffRecovery
  | valveRefreshExpiry | stickFrame _ | takeoverReleaseExpiry | advanceExpectationExpiry | wheelCount _ | rollerCount _
  | gripSampleExpiry | lineOutOfWindowExpiry _ | lineInWindowExpiry _ | dropTimerExpiry | settleTimerExpiry
  | stallTimerExpiry | cutTimerExpiry | returnTimerExpiry =>
    exact row _ run (perform_unpowered off _ _)

end Sys2Proof.Machine
end

section
namespace Sys2Proof.Machine

/-! ### What the end of an event makes of a condition raised last -/

/-- The plain stages read no condition, and of the send list they apply the limit alone. -/
theorem concludeRest_raise (b p : Part) (c : Condition) : concludeRest b (raise c p) =
    { concludeRest b p with link := { (concludeRest b p).link with
      conditions := p.link.conditions ||| c.word, sendList := p.announced c p.link.sendList } } := by
  have list : p.announced c p.link.sendList = if p.link.busOff then [] else (raise c p).link.sendList.take 16 := by
    unfold Part.announced raise
    simp only [Bool.or_eq_true]
  rw [list, concludeRest_eq, concludeRest_eq]
  rfl

/-! ### LOSS_OF_POWER, POWER_ON (09 R186, R188) -/

/-- A store that was cut off has nothing left to cut off as the part starts. -/
theorem loaded_started_store (straps : BitVec 2) (p : Part) : (p.loaded straps).started.store = (p.loaded straps).store := by
  show Store.cutOff { p.store.cutOff with working := _ } = _
  simp [Store.cutOff, Part.loaded]

/-- POWER_ON over a sound stored copy: the part has started over it. -/
theorem powerUp_sound {p : Part} (sound : p.store.cutOff.sound = true) (straps : BitVec 2) :
    powerUp straps p = (p.loaded straps).started := by
  rw [powerUp_eq, if_pos sound, conclude_eq, resetInBusOff_idle (.inl rfl), conclude_startUp]

theorem startUp_conditions (c : Condition) (p : Part) : (startUp p).link.conditions ||| c.word = c.word := BitVec.zero_or

/-- With conditions and masks at reset a condition that is raised is announced (R195, R197). -/
theorem startUp_announced (c : Condition) (p : Part) :
    (startUp p).announced c (startUp p).link.sendList = [.notice (.condition c.word c.word)] := by
  have clear : (startUp p).raised c = false := BitVec.getLsbD_zero
  have unmasked : (startUp p).link.mask.getLsbD c.bit = false := BitVec.getLsbD_zero
  have onBus : (startUp p).link.busOff = false := rfl
  have empty : (startUp p).link.sendList = [] := rfl
  simp [Part.announced, clear, unmasked, onBus, empty, startUp_conditions]

/-- POWER_ON over an unsound one: the part has started over the built-in defaults, STORE_FAULT is raised and announced. -/
theorem powerUp_unsound {p : Part} (unsound : p.store.cutOff.sound = false) (straps : BitVec 2) :
    powerUp straps p = { (p.loaded straps).started with link := { (p.loaded straps).started.link with
      conditions := Condition.storeFault.word
      sendList := [.notice (.condition Condition.storeFault.word Condition.storeFault.word)] } } := by
  rw [powerUp_eq, unsound, if_neg Bool.false_ne_true, conclude_eq, resetInBusOff_idle (.inl rfl),
    holdTest_idle (holdPasses_of_noEntry rfl), concludeRest_raise, startUp_conditions, startUp_announced,
    ← conclude_startUp p, holdTest_idle (holdPasses_of_noEntry rfl)]

/-- Settles O5: power's loss is `powerDown` as it stands; its return is `started` over the copy loaded, with STORE_FAULT beside it
where that copy is the built-in one. -/
theorem powerGoesAndComes : Obligations.PowerGoesAndComes := by
  refine fun s => ⟨rfl, fun straps => ⟨powerUp straps s.part, rfl, ?_⟩⟩
  have restarted : Restarted { s.part with pins := { s.part.pins with straps } } (s.part.loaded straps).started :=
    (started_restarted _).of_pins rfl
  have store := loaded_started_store straps s.part
  rcases sound : s.part.store.cutOff.sound
  · rw [powerUp_unsound sound]
    exact ⟨rfl, restarted, store.trans (by rw [Part.loaded, sound]), fun loads => absurd loads Bool.false_ne_true,
      fun _ => ⟨rfl, rfl⟩⟩
  · rw [powerUp_sound sound]
    exact ⟨rfl, restarted, store.trans (by rw [Part.loaded, sound]), fun _ => ⟨rfl, rfl⟩,
      fun fails => absurd fails.symm Bool.false_ne_true⟩

end Sys2Proof.Machine
end

section
namespace Sys2Proof.Machine

/-! ### Screening (10 R192) -/

/-- What BAD_REQUEST makes of the frame at the head of the queue: code and tag are echoed where it has them. -/
theorem serveBad_answers {p : Part} {bs : List Byte} {rest : List (List Byte)} (requests : p.link.requests = bs :: rest) :
    serveBad p = answered p.link.sendList
      { code := if bs.length < 2 then 0 else byteAt bs 0, tag := if bs.length < 2 then 0 else byteAt bs 1
        answer := .badRequest, results := [] } (p.handed rest) := by
  unfold serveBad
  rw [requests]
  rfl

/-- A frame that fails the first two tests is answered BAD_REQUEST, and that is all. -/
theorem badRequest_runs {s : State} (quiet : Quiet s.part) (on : s.part.powered = true)
    (takes : s.part.takesRequests = true) (short : s.part.link.sendList.length < 16) {bs : List Byte} {rest : List (List Byte)}
    (requests : s.part.link.requests = bs :: rest) (bad : s.part.headBad = true) :
    Runs .badRequest s (s.part.withAnswer
      { code := if bs.length < 2 then 0 else byteAt bs 0, tag := if bs.length < 2 then 0 else byteAt bs 1
        answer := .badRequest, results := [] } rest) := by
  refine runs_on (f := fun p => perform (p.takesRequests && p.headBad) serveBad p) rfl ?_
  rw [perform_on on (by rw [takes, bad, Bool.and_self]), serveBad_answers requests]
  exact conclude_refused quiet _ rest short

theorem headBad_short {p : Part} {bs : List Byte} {rest : List (List Byte)} (requests : p.link.requests = bs :: rest)
    (short : bs.length < 2) : p.headBad = true := by
  unfold Part.headBad
  rw [requests]
  rcases bs with _ | ⟨c, _ | ⟨t, args⟩⟩
  · rfl
  · rfl
  · simp at short

theorem headBad_unknown {p : Part} {code tag : Byte} {args : List Byte} {rest : List (List Byte)}
    (requests : p.link.requests = (code :: tag :: args) :: rest) (unknown : code ∉ requestCodes) : p.headBad = true := by
  unfold Part.headBad
  rw [requests]
  simpa using unknown

theorem refuse_toAnswer (a : AnswerCode) (p : Part) (code tag : Byte) :
    (refuse a p).toAnswer code tag = { code, tag, answer := a, results := [] } := by
  unfold Reply.toAnswer refuse
  dsimp only
  split
  · rfl
  · rfl

/-- A request that the screening refuses is answered so, and that is all. -/
theorem request_screened {s : State} {code tag : Byte} {args : List Byte} {rest : List (List Byte)} {a : AnswerCode}
    (quiet : Quiet s.part) (heads : s.part.heads code tag args rest) (known : code ∈ requestCodes)
    (refused : screen code (argLength code) (handlerOf code) args (s.part.handed rest) = refuse a (s.part.handed rest)) :
    Runs (requestRow code) s (s.part.withAnswer { code, tag, answer := a, results := [] } rest) := by
  refine runs_request known ?_
  rw [request_heads _ _ heads, refused]
  obtain ⟨-, -, short, -⟩ := heads
  rw [refuse_toAnswer]
  exact conclude_refused quiet _ rest short

/-- Settles O8: a frame without code and tag, or of an unknown code, is BAD_REQUEST's; what `screen` refuses its row answers. -/
theorem screeningComesFirst : Obligations.ScreeningComesFirst := by
  intro s hs on unarranged short
  have quiet := hs.quiet on
  have takes : s.part.takesRequests = true := by
    unfold Part.takesRequests
    rw [unarranged, decide_eq_true short]
    rfl
  have heads : ∀ {code tag args rest}, s.part.link.requests = (code :: tag :: args) :: rest → s.part.heads code tag args rest :=
    fun requests => ⟨on, unarranged, short, requests⟩
  refine ⟨fun bs rest requests brief => ?_, fun code tag args rest requests unknown => ?_,
    fun code tag args rest requests known brief => ?_,
    fun code tag args rest requests known long unready notStatus notConditions notSpecies notSetting notReset => ?_⟩
  · have run := badRequest_runs quiet on takes short requests (headBad_short requests brief)
    rwa [if_pos brief, if_pos brief] at run
  · exact badRequest_runs quiet on takes short requests (headBad_unknown requests unknown)
  · exact request_screened quiet (heads requests) known (if_pos brief)
  · refine request_screened quiet (heads requests) known ((if_neg (Nat.not_lt.mpr long)).trans (if_pos ?_))
    have late : takenUnready.contains code = false := by
      simpa [takenUnready] using ⟨notStatus, notConditions, notSpecies, notSetting, notReset⟩
    rw [late, show (s.part.handed rest).boot.ready = false from unready]
    rfl

end Sys2Proof.Machine
end

section
namespace Sys2Proof.Machine

/-! ### STORE, STORE_COMPLETION (09 R185, R186) -/

/-- The end of an event reads of the store no more than the working copy, and no count of free values. -/
theorem Quiet.with_store {p : Part} (h : Quiet p) (draws : Nat) {store : Store} (working : store.working = p.store.working) :
    Quiet { p with draws, store } := by
  obtain ⟨copy, stored, sound, inFlight⟩ := store
  obtain rfl : copy = p.store.working := working
  exact ⟨h.pending, h.holds, h.drop, h.slip, h.ready, h.knife, h.image, h.refresh, h.list⟩

/-- A settled part that ends an event with a condition raised last keeps all but conditions and send list. -/
theorem Quiet.conclude_raise {p : Part} (h : Quiet p) (b : Part) (hb : b.link.image = p.link.image)
    (hs : b.sendsValve = p.sendsValve) (c : Condition) (l : List SendItem) :
    conclude b (raise c { p with link := { p.link with sendList := l } }) = { p with link := { p.link with
      conditions := p.link.conditions ||| c.word, sendList := p.announced c l } } := by
  have ends := h.conclude_list b hb hs l
  rw [conclude_eq, resetInBusOff_idle (p := { p with link := { p.link with sendList := l } }) h.pending,
    holdTest_idle (p := { p with link := { p.link with sendList := l } }) h.holds] at ends
  rw [conclude_eq, resetInBusOff_idle (p := raise c { p with link := { p.link with sendList := l } }) h.pending,
    holdTest_idle (p := raise c { p with link := { p.link with sendList := l } }) h.holds, concludeRest_raise, ends]
  rfl

/-- The part whose store in flight has ended, no notice placed yet (R186). -/
def Part.storeEnded (p : Part) (held : Bool) : Part :=
  { p with
    draws := p.draws + 1
    store := { p.store with stored := if held then p.store.working else p.store.stored, sound := held, inFlight := none } }

theorem Quiet.storeEnded {p : Part} (h : Quiet p) (held : Bool) : Quiet (p.storeEnded held) :=
  h.with_store (p.draws + 1) (store := (p.storeEnded held).store) rfl

/-- The part whose store in flight has ended, STORE_DONE placed. -/
def Part.storeReported (p : Part) (held : Bool) : Part :=
  { p.storeEnded held with link := { (p.storeEnded held).link with
      sendList := p.link.sendList ++ [.notice (.storeDone held)] } }

theorem storeCompletes_eq (held : Bool) (p : Part) : storeCompletes held p =
    if held then p.storeReported held else raise .storeFault (p.storeReported held) := rfl

/-- The row acts on a store in flight. -/
theorem storeCompletion_runs {s : State} {q : Part} {held : Bool} (on : s.part.powered = true)
    (flies : s.part.store.inFlight ≠ none)
    (ends : conclude s.part (if held then s.part.storeReported held else raise .storeFault (s.part.storeReported held)) = q) :
    Runs (.storeCompletion held) s q := by
  have storing : s.part.storing = true := Option.isSome_iff_ne_none.mpr flies
  refine runs_on (f := fun p => perform p.storing (storeCompletes held) p) rfl ?_
  rw [perform_on on storing, storeCompletes_eq]
  exact ends

/-- Settles O32: STORE's handler and the completion touch nothing that the end of an event reads (`Quiet.with_store`), so that only
the answer, the notice and a STORE_FAULT raised last stand beside the store. -/
theorem storeIsTakenAndCompletes : Obligations.StoreIsTakenAndCompletes := by
  intro s hs
  refine ⟨fun tag args rest granted => ?_, fun on flies => ?_, fun idle held => ?_⟩
  · have ⟨⟨⟨on, _, short, _⟩, _⟩, _, table⟩ := granted
    have quiet := (hs.quiet on).with_store s.part.draws (store := { s.part.store with inFlight := some 0 }) rfl
    have free : s.part.storing = false := (firstFailing_none.mp table).1
    have handled : handlerOf 0x2A args (s.part.handed rest) =
        accept [] ({ s.part with store := { s.part.store with inFlight := some 0 } }.handed rest) :=
      if_neg (by rw [show (s.part.handed rest).storing = false from free]; exact Bool.false_ne_true)
    refine runs_request (code := 0x2A) (by decide) ?_
    rw [request_granted granted (by decide), handled]
    exact quiet.conclude_answered s.part rfl rfl _ rest short
  · have quiet := hs.quiet on
    refine ⟨storeCompletion_runs on flies ?_, storeCompletion_runs on flies ?_⟩
    · exact (quiet.storeEnded true).conclude_list s.part rfl rfl _
    · exact (quiet.storeEnded false).conclude_raise s.part rfl rfl .storeFault _
  · refine runs_on (f := fun p => perform p.storing (storeCompletes held) p) rfl (perform_off ?_)
    rw [Part.storing, idle]
    rfl

end Sys2Proof.Machine
end

section
namespace Sys2Proof.Machine

/-! ### RESET (09 R187) -/

/-- The part with a reset arranged. -/
def Part.arranged (p : Part) (k : ResetKind) : Part := { p with boot := { p.boot with resetPending := some k } }

/-- Out of bus-off an arranged reset is no matter of the end of an event. -/
theorem Quiet.arranged {p : Part} (h : Quiet p) (onBus : p.link.busOff = false) (k : ResetKind) : Quiet (p.arranged k) :=
  ⟨.inr onBus, h.holds, h.drop, h.slip, h.ready, h.knife, h.image, h.refresh, h.list⟩

/-- What RESET's handler makes of an argument that its table lets pass. -/
theorem reset_handled {p : Part} {args : List Byte} (rest : List (List Byte)) (table : p.refusal 0x30 args = none) :
    handlerOf 0x30 args (p.handed rest) =
      accept [byteAt args 0] ((p.arranged (if readU8 args 0 = 0 then .normal else .factory)).handed rest) := by
  have known : readU8 args 0 = 0 ∨ readU8 args 0 = 1 := by
    have := of_decide_eq_false (firstFailing_none.mp table).1
    omega
  change doReset args (p.handed rest) = _
  unfold doReset ResetKind.ofCode
  rcases known with code | code
  · rw [code]
    rfl
  · rw [code]
    rfl

/-- A reset that takes effect ends its event started anew, whatever the send list held. -/
theorem conclude_resetEffect (b p : Part) (k : ResetKind) : conclude b (resetEffect k p) = (p.restocked k).started := by
  rw [conclude_eq, resetInBusOff_idle (.inl (resetEffect_pending k p)), resetEffect_eq, conclude_startUp]

theorem started_resetTaken (k : ResetKind) (p : Part) : ResetTaken k p (p.restocked k).started :=
  ⟨(started_restarted _).of_pins rfl, rfl, rfl, rfl, rfl⟩

theorem isResetAnswer_answer (a : Answer) : (SendItem.answer a).isResetAnswer = (a.code == 0x30 && a.answer == .ok) := rfl

/-- The part once the head of its send list has gone to the bus (10 R194). -/
def Part.itemGone (p : Part) (i : SendItem) (l : List SendItem) : Part :=
  { p with link := { p.link with
      sendList := l, errors := p.link.errors - 1, lastSent := some (i.frame p.link.node) } }

/-- With no valve command frame waiting it is the head of the send list that goes. -/
theorem frameTransmitted_runs {s : State} {q : Part} {i : SendItem} {l : List SendItem} (on : s.part.powered = true)
    (valve : s.part.link.valve = none) (list : s.part.link.sendList = i :: l)
    (ends : conclude s.part (itemSent i l s.part) = q) : Runs .frameTransmitted s q := by
  have sending : s.part.sending = true := by
    rw [Part.sending, list]
    exact Bool.or_true _
  have sent : frameSent s.part = itemSent i l s.part := by
    unfold frameSent
    rw [valve, list]
  refine runs_on (f := fun p => perform p.sending frameSent p) rfl ?_
  rw [perform_on on sending, sent]
  exact ends

theorem itemSent_resets {p : Part} {k : ResetKind} (pending : p.boot.resetPending = some k) {i : SendItem}
    (own : i.isResetAnswer = true) (l : List SendItem) : itemSent i l p = resetEffect k (p.itemGone i l) := by
  unfold itemSent
  rw [pending]
  exact if_pos own

theorem itemSent_passes {p : Part} {k : ResetKind} (pending : p.boot.resetPending = some k) {i : SendItem}
    (other : i.isResetAnswer = false) (l : List SendItem) : itemSent i l p = p.itemGone i l := by
  unfold itemSent
  rw [pending]
  exact if_neg (by rw [other]; exact Bool.false_ne_true)

/-- A settled part whose list has lost its head is settled. -/
theorem Quiet.itemGone {p : Part} (h : Quiet p) {i : SendItem} {l : List SendItem} (list : p.link.sendList = i :: l) :
    Quiet (p.itemGone i l) := by
  refine ⟨h.pending, h.holds, h.drop, h.slip, h.ready, h.knife, h.image, h.refresh, ?_⟩
  have limit := h.list
  rw [list] at limit
  change l = if p.link.busOff then [] else l.take 16
  split at limit
  · cases limit
  · next onBus =>
    rw [if_neg onBus, List.take_of_length_le]
    have length := congrArg List.length limit
    rw [List.length_take, List.length_cons] at length
    omega

/-- Settles O33: a taken RESET is arranged and answered; bus-off releases it at the end of that event, else the sending of its own
answer does. -/
theorem resetTakesEffectAfterItsAnswer : Obligations.ResetTakesEffectAfterItsAnswer := by
  intro s tag args rest k hs
  refine ⟨fun granted kind => ?_, fun a l on pending valve list => ⟨fun code ok => ?_, fun code => ?_⟩⟩
  · have ⟨⟨⟨on, _, short, _⟩, _⟩, _, table⟩ := granted
    have run := request_granted granted (by decide)
    rw [reset_handled rest table, ← kind] at run
    refine ⟨fun onBus => runs_request (code := 0x30) (by decide) (run.trans ?_),
      fun off => ⟨_, runs_request (code := 0x30) (by decide) run, conclude_resetTaken s.part (k := k) rfl off rfl rfl rfl⟩⟩
    exact ((hs.quiet on).arranged onBus k).conclude_answered s.part rfl rfl _ rest short
  · have own : (SendItem.answer a).isResetAnswer = true := by
      rw [isResetAnswer_answer, code, ok]
      rfl
    refine ⟨((s.part.itemGone (.answer a) l).restocked k).started, frameTransmitted_runs on valve list ?_,
      started_resetTaken k (s.part.itemGone (.answer a) l), rfl⟩
    rw [itemSent_resets pending own, conclude_resetEffect]
  · have other : (SendItem.answer a).isResetAnswer = false := by
      rw [isResetAnswer_answer, beq_eq_false_iff_ne.mpr code]
      rfl
    refine frameTransmitted_runs on valve list ?_
    rw [itemSent_passes pending other]
    exact ((hs.quiet on).itemGone list).conclude_self s.part rfl rfl

end Sys2Proof.Machine
end

section
namespace Sys2Proof.Machine

/-! ### What work leaves of the link -/

/-- From `p` to `q` the link has done no more than latch conditions and list notices: the request queue, the valve command
frames and bus-off stand. -/
def LinkKept (p q : Part) : Prop :=
  q.link = { p.link with conditions := q.link.conditions, sendList := q.link.sendList }

theorem LinkKept.of_link {p q : Part} (h : q.link = p.link) : LinkKept p q := by
  unfold LinkKept
  rw [h]

protected theorem LinkKept.rfl (p : Part) : LinkKept p p := rfl

theorem LinkKept.trans {p q t : Part} (h : LinkKept p q) (k : LinkKept q t) : LinkKept p t := by
  unfold LinkKept at *
  rw [h] at k
  exact k

theorem FeedOnly.linkKept {p q : Part} (h : FeedOnly p q) : LinkKept p q := congrArg Part.link h

theorem FeedAndHold.linkKept {p q : Part} (h : FeedAndHold p q) : LinkKept p q := congrArg Part.link h

theorem Handed.linkKept {p q : Part} (h : Handed p q) : LinkKept p q := congrArg Part.link h

theorem PlanWork.linkKept {p q : Part} (h : PlanWork p q) : LinkKept p q := congrArg Part.link h

theorem LineWork.linkKept {p q : Part} (h : LineWork p q) : LinkKept p q := congrArg Part.link h

/-! ### The saw -/

theorem sawParks_linkKept (p : Part) : LinkKept p (sawParks p) := (sawParks_feedOnly p).linkKept

theorem sawFaults_linkKept (p : Part) : LinkKept p (sawFaults p) := rfl

theorem strokeCompletes_linkKept (p : Part) : LinkKept p (strokeCompletes p) := by
  have done : LinkKept p (feedCutOver (cutComplete { p with saw := p.saw.return_ .completed })) :=
    (cutComplete_planWork { p with saw := p.saw.return_ .completed }).linkKept.trans (feedCutOver_feedOnly _).linkKept
  unfold strokeCompletes
  dsimp only
  split
  · exact done.trans (sawParks_linkKept _)
  · exact done

theorem sawAdvances_linkKept (c : Cycle) (p : Part) : LinkKept p (sawAdvances c p) := by
  have start : ∀ w, LinkKept p (cutStart c.kind { p with saw := w }) := fun w =>
    (cutStart_planWork c.kind { p with saw := w }).linkKept
  unfold sawAdvances
  dsimp only
  split
  · exact (start _).trans (strokeCompletes_linkKept _)
  · exact start _

theorem offerRequest_linkKept (p : Part) : LinkKept p (offerRequest p) := by
  unfold offerRequest
  split
  · split
    · exact sawAdvances_linkKept _ _
    · exact .rfl p
  · exact .rfl p

theorem returnEnds_linkKept (p : Part) : LinkKept p (returnEnds p) := by
  unfold returnEnds
  split
  · exact sawParks_linkKept p
  · split
    · split
      · exact sawAdvances_linkKept _ p
      · exact sawParks_linkKept p
    · exact sawFaults_linkKept p
    · exact sawParks_linkKept p
    · exact sawParks_linkKept p

theorem manualEnds_linkKept (p : Part) : LinkKept p (manualEnds p) := by
  have aborted := (cutAbort_planWork p).linkKept
  unfold manualEnds
  split
  · exact sawParks_linkKept p
  · split
    · exact sawParks_linkKept p
    · split
      · exact aborted.trans (sawFaults_linkKept _)
      · exact aborted.trans (sawParks_linkKept _)

theorem jamEnds_linkKept (p : Part) : LinkKept p (jamEnds p) := by
  unfold jamEnds
  split
  · exact sawFaults_linkKept p
  · exact sawFaults_linkKept p
  · exact sawParks_linkKept p
  · exact sawParks_linkKept p

theorem firstTimeout_linkKept (p : Part) : LinkKept p (firstTimeout p) := by
  have aborted := (cutAbort_planWork { p with saw := p.saw.return_ .firstTimeout }).linkKept
  unfold firstTimeout
  dsimp only
  split
  · exact aborted.trans (returnEnds_linkKept _)
  · exact aborted

theorem secondTimeout_linkKept (p : Part) : LinkKept p (secondTimeout p) := by
  have done : LinkKept p (feedCutOver (cutAbort (raise .sawTimeout { p with saw := p.saw.return_ .secondTimeout }))) :=
    (FeedOnly.of_raise .sawTimeout { p with saw := p.saw.return_ .secondTimeout }).linkKept.trans
      ((cutAbort_planWork _).linkKept.trans (feedCutOver_feedOnly _).linkKept)
  unfold secondTimeout
  dsimp only
  split
  · exact done.trans (sawFaults_linkKept _)
  · exact done

theorem cutTimesOut_linkKept (p : Part) : LinkKept p (cutTimesOut p) := by
  unfold cutTimesOut
  split
  · split
    · exact secondTimeout_linkKept p
    · exact firstTimeout_linkKept p
  · exact .rfl p

theorem returnTimesOut_linkKept (p : Part) : LinkKept p (returnTimesOut p) := by
  have jammed : ∀ w, LinkKept p (raise .sawJam { p with saw := w }) := fun _ => rfl
  unfold returnTimesOut
  split
  · exact (jammed _).trans (feedCutOver_feedOnly _).linkKept
  · exact .rfl p

theorem barLeaves_linkKept (p : Part) : LinkKept p (barLeaves p) := by
  have left : ∀ pins w, LinkKept p (feedSawLeft { p with pins := pins, saw := w }) := fun pins w =>
    (feedSawLeft_feedOnly { p with pins := pins, saw := w }).linkKept
  unfold barLeaves
  dsimp only
  split
  · exact (left _ _).trans (cutStart_planWork .manual _).linkKept
  · exact .of_link rfl

theorem strokeEnds_linkKept (p : Part) : LinkKept p (strokeEnds p) := by
  have level : LinkKept p { p with pins := { p.pins with endOfStroke := true } } := rfl
  unfold strokeEnds
  dsimp only
  split
  · exact level.trans (strokeCompletes_linkKept _)
  · split
    · split
      · exact level
      · exact (cutComplete_planWork _).linkKept
    · exact level
  all_goals exact level

theorem barHomes_linkKept (p : Part) : LinkKept p (barHomes p) := by
  have level : LinkKept p { p with pins := { p.pins with homeClosed := true, endOfStroke := false } } := rfl
  unfold barHomes
  dsimp only
  split
  · exact level.trans ((returnEnds_linkKept _).trans (offerRequest_linkKept _))
  · exact level.trans ((manualEnds_linkKept _).trans (offerRequest_linkKept _))
  · exact level.trans ((jamEnds_linkKept _).trans (offerRequest_linkKept _))
  all_goals exact level

/-! ### The feed asks for a cut -/

theorem goCutWait_linkKept (p : Part) : LinkKept p (goCutWait p) :=
  (waitingToCut_feedOnly p).linkKept.trans (offerRequest_linkKept _)

theorem settleCuts_linkKept (p : Part) : LinkKept p (settleCuts p) :=
  (overshooting_feedOnly p).linkKept.trans (goCutWait_linkKept _)

theorem settleEnds_linkKept (p : Part) : LinkKept p (settleEnds p) := by
  unfold settleEnds
  split
  · split
    · exact settleCuts_linkKept p
    · split
      · exact (feedDecide_feedOnly p).linkKept
      · dsimp only
        repeat' split
        · exact settleCuts_linkKept p
        · exact goCutWait_linkKept p
        · exact (correctToward_feedOnly _ p).linkKept
        · exact (correctToward_feedOnly _ p).linkKept
        · exact settleCuts_linkKept p
  · exact .rfl p

theorem cutNow_linkKept (p : Part) : LinkKept p (cutNow p) := by
  have base : ∀ f, LinkKept p { p with feed := f } := fun _ => rfl
  have settles : ∀ f, LinkKept p (enterFeed .settle { p with feed := f }) := fun f =>
    (enterFeed_feedOnly .settle { p with feed := f }).linkKept
  have goes : ∀ f, LinkKept p (goCutWait { p with feed := f }) := fun f => goCutWait_linkKept { p with feed := f }
  unfold cutNow
  dsimp only
  split
  · exact settles _
  · exact settles _
  · exact settles _
  · exact settles _
  · exact settles _
  · exact base _
  · exact goes _
  · exact goes _
  · exact goes _
  · split
    · exact base _
    · exact (base _).trans (offerRequest_linkKept _)
  · exact base _

end Sys2Proof.Machine
end

section
namespace Sys2Proof.Machine

/-! ### The measuring units -/

theorem SensorOutcome.linkKept {p z : Part} (h : SensorOutcome p z) : LinkKept p z := by
  cases h with
  | short => exact .rfl p
  | taken => exact .of_link rfl
  | finished i r x => exact (finishTop_planWork i r x (qualified p)).linkKept
  | waits i r x hi hr => exact .of_link rfl
  | begun => exact .of_link rfl
  | established i r hi hr =>
    exact (established_handed i ((referencedUnits (qualified p)).setRecord i (some { r with reference := .endSensed }))).linkKept

theorem guidanceTravel_linkKept (before : Option Int) (p : Part) : LinkKept p (guidanceTravel before p) := by
  unfold guidanceTravel
  split
  · exact .rfl p
  · exact (guidanceTest_handed p).linkKept

theorem beforeSensor_linkKept (d : Int) (p : Part) : LinkKept p (beforeSensor d p) := by
  have sums : LinkKept p (crossed d p) := .of_link (by rw [crossed_eq]; rfl)
  exact sums.trans (congrArg Part.link (creepCheck_eq (crossed d p)))

theorem selectedTravel_linkKept (d : Int) (p : Part) : LinkKept p (selectedTravel d p) := by
  rw [selectedTravel_eq]
  exact (beforeSensor_linkKept d p).trans ((endQualify_outcome _).linkKept.trans
    ((feedTravelSampled_feedAndHold _ _).linkKept.trans (guidanceTravel_linkKept _ _)))

theorem travelIf_linkKept (selected : Prop) [Decidable selected] (d : Int) (p : Part) : LinkKept p (travelIf selected d p) := by
  unfold travelIf
  split
  · exact selectedTravel_linkKept d p
  · exact .rfl p

theorem slipClose_linkKept (p : Part) : LinkKept p (slipClose p) := by
  unfold slipClose
  split
  · exact .rfl p
  · dsimp only
    repeat' split
    · exact .rfl p
    · rfl
    · rfl
    · exact .of_link rfl

theorem wheelCounts_linkKept (forward : Bool) (p : Part) : LinkKept p (wheelCounts forward p) := by
  have begun : LinkKept p (wheelStart forward p) := rfl
  rw [wheelCounts_eq]
  exact begun.trans ((travelIf_linkKept _ _ _).trans (slipClose_linkKept _))

theorem seat_linkKept (d : Int) (p : Part) : LinkKept p (seat d p) := by
  unfold seat
  repeat' split
  · exact .of_link rfl
  · exact .of_link rfl
  · exact .rfl p
  · exact .rfl p

theorem rollerCounts_linkKept (forward : Bool) (p : Part) : LinkKept p (rollerCounts forward p) := by
  have begun : LinkKept p (rollerStart forward p) := rfl
  rw [rollerCounts_eq]
  exact begun.trans ((travelIf_linkKept _ _ _).trans (seat_linkKept _ _))

theorem contactLevel_linkKept (closed : Bool) (p : Part) : LinkKept p (contactLevel closed p) := by
  unfold contactLevel
  split
  · exact .rfl p
  · exact .of_link rfl

theorem endSensorLevel_linkKept (covered : Bool) (p : Part) : LinkKept p (endSensorLevel covered p) := by
  unfold endSensorLevel
  split
  · exact .rfl p
  · exact .of_link rfl

theorem takeSample_link (p : Part) : (takeSample p).link = p.link := by
  unfold takeSample
  split
  · rfl
  · rfl

theorem gripSample_linkKept (p : Part) : LinkKept p (gripSample p) := by
  unfold gripSample
  repeat' split
  · exact .of_link (takeSample_link _)
  · exact .of_link rfl
  · exact .rfl p

theorem dropReport_linkKept (p : Part) : LinkKept p (dropReport p) := by
  rcases hi : p.activeSlot with _ | i
  · unfold dropReport
    rw [hi]
    exact .rfl p
  · obtain ⟨r, hr, -⟩ := (isActive_iff p i).mp (activeSlot_isActive hi)
    unfold LinkKept
    rw [dropReport_link hi hr]
    rfl

/-! ### The arm lines -/

theorem lineReads_linkKept (l : Line) (x : BitVec 12) (p : Part) : LinkKept p (lineReads l x p) := by
  rw [lineReads_eq]
  exact .of_link rfl

theorem lineOutExpires_linkKept (l : Line) (p : Part) : LinkKept p (lineOutExpires l p) := by
  unfold lineOutExpires
  split
  · exact (lineFaults_work l _ p).linkKept
  · exact (lineFaults_work l _ p).linkKept
  · exact .rfl p

theorem lineInExpires_linkKept (l : Line) (p : Part) : LinkKept p (lineInExpires l p) := by
  unfold lineInExpires
  split
  · exact .of_link rfl
  · exact .of_link rfl
  · exact .rfl p

/-! ### The takeover monitor, the stored copy -/

theorem takeoverBegins_linkKept (t : Takeover) (p : Part) : LinkKept p (takeoverBegins t p) :=
  (LinkKept.of_link (takenOver_link t p)).trans (takeoverBegins_feedOnly t p).linkKept

theorem takeoverEnds_linkKept (p : Part) : LinkKept p (takeoverEnds p) :=
  (feedSetValue_feedOnly .grip (p.underTakeover .none)).linkKept

theorem releaseExpires_linkKept (p : Part) : LinkKept p (releaseExpires p) := by
  unfold releaseExpires
  split
  · exact takeoverEnds_linkKept p
  · exact .rfl p
  · exact .rfl p

theorem stickArrives_linkKept (f : BusFrame) (p : Part) : LinkKept p (stickArrives f p) := by
  unfold stickArrives stickDecoded
  dsimp only
  split
  · split
    · exact takeoverBegins_linkKept _ (p.stickSeen _)
    · exact .of_link rfl
    · exact .of_link rfl
  · exact .of_link rfl

theorem storeCompletes_linkKept (held : Bool) (p : Part) : LinkKept p (storeCompletes held p) := by
  cases held
  · rfl
  · rfl

end Sys2Proof.Machine
end

section
namespace Sys2Proof.Machine

/-! ### Handlers that leave the queue and the valve command frames -/

/-- A handler that does no more to the link than latch conditions and list notices. -/
def KeepsLink (handler : List Byte → Part → Reply) : Prop := ∀ args p, LinkKept p (handler args p).part

theorem withStem_linkKept {id : StemId} {p : Part} {k : Fin 8 → Record → Reply} (h : ∀ i r, LinkKept p (k i r).part) :
    LinkKept p (withStem id p k).part := by
  unfold withStem
  split
  · exact .rfl p
  · split
    · exact .rfl p
    · exact h _ _

theorem doReadConditions_keepsLink : KeepsLink doReadConditions := fun _ _ => rfl

theorem doSetFeed_keepsLink : KeepsLink doSetFeed := fun args p => by
  unfold doSetFeed
  repeat' split
  any_goals exact .rfl p
  exact (feedSetValue_feedOnly _ p).linkKept

theorem doKnifeOverride_keepsLink : KeepsLink doKnifeOverride := fun args p => by
  unfold doKnifeOverride
  repeat' split
  · exact .of_link rfl
  · exact .rfl p
  · exact .of_link rfl

theorem doTakeover_keepsLink : KeepsLink doTakeover := fun args p => by
  have begins : LinkKept p (takeoverRequested p) := by
    unfold takeoverRequested
    split
    · exact .rfl p
    · exact takeoverBegins_linkKept _ p
  have ends : LinkKept p (takeoverReleased p) := by
    unfold takeoverReleased
    split
    · exact takeoverEnds_linkKept p
    · exact .rfl p
  unfold doTakeover
  repeat' split
  · exact .rfl p
  · exact .rfl p
  · exact begins
  · exact ends

theorem doCutNow_keepsLink : KeepsLink doCutNow := fun args p => by
  unfold doCutNow
  repeat' split
  any_goals exact .rfl p
  exact cutNow_linkKept p

theorem doOpenStem_keepsLink : KeepsLink doOpenStem := fun args p => by
  unfold doOpenStem
  repeat' split
  all_goals exact .of_link rfl

theorem attachStem_linkKept (i : Fin 8) (r : Record) (p : Part) : LinkKept p (attachStem i r p) :=
  (feedAttach_feedOnly { p.setRecord i (some r.attach) with
    length := p.length.attach
    diameter := p.diameter.attach
    monitor := { p.monitor with guidance := .reset } }).linkKept.trans (arm_handed i _).linkKept

theorem doAttachStem_keepsLink : KeepsLink doAttachStem := fun args p => withStem_linkKept fun i r => by
  repeat' split
  any_goals exact .rfl p
  exact attachStem_linkKept i r p

theorem finishStem_linkKept (i : Fin 8) (r : Record) (p : Part) : LinkKept p (finishStem i r p) := by
  unfold finishStem
  dsimp only
  split
  · exact (endPeriod_planWork (p.setRecord i (some r.finish))).linkKept
  · exact .of_link rfl

theorem doFinishStem_keepsLink : KeepsLink doFinishStem := fun args p => withStem_linkKept fun i r => by
  repeat' split
  any_goals exact .rfl p
  exact finishStem_linkKept i r p

theorem doRetireStem_keepsLink : KeepsLink doRetireStem := fun args p => withStem_linkKept fun i r => by
  repeat' split
  all_goals exact .of_link rfl

theorem doReadStem_keepsLink : KeepsLink doReadStem := fun _ p => withStem_linkKept fun _ _ => .rfl p

theorem doReadEntries_keepsLink : KeepsLink doReadEntries := fun args p => withStem_linkKept fun i r => by
  dsimp only
  repeat' split
  all_goals exact .rfl p

theorem doAppendEntry_keepsLink : KeepsLink doAppendEntry := fun args p => withStem_linkKept fun i r => by
  dsimp only
  repeat' split
  any_goals exact .rfl p
  exact (arm_handed i (p.setRecord i (some (r.appendEntry .pending _)))).linkKept

theorem insertTaken_linkKept (i : Fin 8) (r : Record) (k : Nat) (st : EntryState) (plan : Planned) (p : Part) :
    LinkKept p (insertTaken i r k st plan p) := by
  refine LinkKept.trans ?_ (arm_handed i _).linkKept
  split
  · exact (handOver_handed _ true (p.setRecord i (some (r.insertEntry k st plan)))).linkKept
  · exact .of_link rfl

theorem doInsertEntry_keepsLink : KeepsLink doInsertEntry := fun args p => withStem_linkKept fun i r => by
  dsimp only
  repeat' split
  any_goals exact .rfl p
  exact insertTaken_linkKept i r _ _ _ p

theorem changeTaken_linkKept (i : Fin 8) (r : Record) (k : Nat) (e : Entry) (plan : Planned) (p : Part) :
    LinkKept p (changeTaken i r k e plan p) := by
  unfold changeTaken
  dsimp only
  split
  · exact (handOver_handed _ true (p.setRecord i (some (r.changeEntry k plan)))).linkKept
  · exact .of_link rfl

theorem doChangeEntry_keepsLink : KeepsLink doChangeEntry := fun args p => withStem_linkKept fun i r => by
  dsimp only
  repeat' split
  any_goals exact .rfl p
  exact changeTaken_linkKept i r _ _ _ p

theorem cancelTaken_linkKept (i : Fin 8) (r : Record) (k : Nat) (e : Entry) (p : Part) :
    LinkKept p (cancelTaken i r k e p) := by
  unfold cancelTaken
  repeat' split
  · next r' _ => exact (handOver_handed none false (p.setRecord i (some r'))).linkKept
  · next r' _ _ _ => exact (armingHands_handed _ (p.setRecord i (some r'))).linkKept
  · exact .of_link rfl

theorem doCancelEntry_keepsLink : KeepsLink doCancelEntry := fun args p => withStem_linkKept fun i r => by
  dsimp only
  repeat' split
  any_goals exact .rfl p
  exact cancelTaken_linkKept i r _ _ p

theorem doReadSpecies_keepsLink : KeepsLink doReadSpecies := fun args p => by
  unfold doReadSpecies
  split
  · exact .rfl p
  · exact .rfl p

theorem setSpecies_linkKept (c : Fin 32) (x : Species) (p : Part) : LinkKept p (setSpecies c x p) := .of_link rfl

theorem doWriteSpecies_keepsLink : KeepsLink doWriteSpecies := fun args p => by
  unfold doWriteSpecies
  repeat' split
  all_goals exact .of_link rfl

theorem doClearSpecies_keepsLink : KeepsLink doClearSpecies := fun args p => by
  unfold doClearSpecies
  repeat' split
  all_goals exact .of_link rfl

theorem doCalibrate_keepsLink : KeepsLink doCalibrate := fun args p => withStem_linkKept fun i r => by
  repeat' split
  any_goals exact .rfl p
  unfold calibrateEntry
  split
  · exact .rfl p
  · exact setSpecies_linkKept _ _ p

theorem doReadSetting_keepsLink : KeepsLink doReadSetting := fun args p => by
  unfold doReadSetting
  split
  · exact .rfl p
  · exact .rfl p

theorem doStore_keepsLink : KeepsLink doStore := fun args p => by
  unfold doStore
  split
  · exact .rfl p
  · exact .of_link rfl

theorem doReset_keepsLink : KeepsLink doReset := fun args p => by
  unfold doReset
  split
  · exact .rfl p
  · exact .of_link rfl

/-! ### Settings -/

theorem lineEnableWritten_linkKept (l : Line) (p : Part) : LinkKept p (lineEnableWritten l p) := by
  unfold lineEnableWritten
  split
  · exact .of_link rfl
  · exact .of_link rfl

theorem lineWindowWritten_linkKept (l : Line) (p : Part) : LinkKept p (lineWindowWritten l p) := by
  unfold lineWindowWritten
  split
  · exact .rfl p
  · exact .of_link rfl

theorem snoopWritten_linkKept (p : Part) : LinkKept p (snoopWritten p) := by
  unfold snoopWritten
  split
  · exact .of_link rfl
  · exact .of_link rfl

theorem LinkKept.ite {test : Prop} [Decidable test] {p x y : Part} (yes : LinkKept p x) (no : LinkKept p y) :
    LinkKept p (if test then x else y) := by
  split
  · exact yes
  · exact no

theorem settingActs_linkKept (n : Fin 40) (p : Part) : LinkKept p (settingActs n p) :=
  .ite (lineEnableWritten_linkKept .ka p) <| .ite (lineEnableWritten_linkKept .kb p) <| .ite (lineEnableWritten_linkKept .rl p) <|
    .ite (lineWindowWritten_linkKept .ka p) <| .ite (lineWindowWritten_linkKept .kb p) <| .ite (lineWindowWritten_linkKept .rl p) <|
    .ite (.ite (cutTimesOut_linkKept p) (.rfl p)) <| .ite (.ite (returnTimesOut_linkKept p) (.rfl p)) <|
    .ite (snoopWritten_linkKept p) <| .ite (.ite (releaseExpires_linkKept p) (.rfl p)) (.rfl p)

theorem writeSetting_linkKept (n : Fin 40) (v : Int) (p : Part) : LinkKept p (writeSetting n v p) := by
  unfold writeSetting
  split
  · exact .rfl p
  · exact settingActs_linkKept n (setSetting n v p)

end Sys2Proof.Machine
end

section
namespace Sys2Proof.Machine

/-! ### The queue and the waiting frame in the middle of an event -/

/-- The queue holds at most 4 requests, and in bus-off no valve command frame waits: what the work of an event keeps, before its end
limits the send list. -/
structure LinkBounded (p : Part) : Prop where
  requests : p.link.requests.length ≤ 4
  unsent : p.link.busOff = true → p.link.valve = none

theorem QueuesBounded.linkBounded {p : Part} (h : QueuesBounded p) : LinkBounded p :=
  have ⟨requests, _, silent⟩ := h
  ⟨requests, fun off => (silent off).2⟩

theorem LinkKept.bounded {p q : Part} (k : LinkKept p q) (h : LinkBounded p) : LinkBounded q := by
  constructor
  · rw [k]
    exact h.requests
  · rw [k]
    exact h.unsent

theorem busOff_silent {p : Part} (off : p.link.busOff = true) : p.sendsValve = false := by
  rw [Part.sendsValve, off, Bool.not_true, Bool.and_false]

/-- A part that sends is not in bus-off, so a frame built for it is no matter. -/
theorem LinkBounded.of_sends {p : Part} (requests : p.link.requests.length ≤ 4) (sends : p.sendsValve = true) :
    LinkBounded p := by
  refine ⟨requests, fun off => ?_⟩
  rw [busOff_silent off] at sends
  cases sends

theorem startUp_linkBounded (p : Part) : LinkBounded (startUp p) := ⟨Nat.zero_le 4, fun _ => rfl⟩

theorem resetEffect_linkBounded (k : ResetKind) (p : Part) : LinkBounded (resetEffect k p) := startUp_linkBounded _

/-! ### The end of an event -/

/-- The end of an event limits the send list, empties it in bus-off, and builds no frame there. -/
theorem LinkBounded.concluded {p : Part} (h : LinkBounded p) (b : Part) : QueuesBounded (conclude b p) := by
  have released : LinkBounded (resetInBusOff p) := by
    unfold resetInBusOff
    repeat' split
    · exact resetEffect_linkBounded _ p
    · exact h
    · exact h
  have held : LinkBounded (holdTest (resetInBusOff p)) := (holdTest_feedAndHold _).linkKept.bounded released
  rw [conclude_eq]
  generalize holdTest (resetInBusOff p) = x at held
  rw [concludeRest_eq]
  refine ⟨held.requests, ?_, fun off => ⟨if_pos off, ?_⟩⟩
  · dsimp only
    split
    · exact Nat.zero_le 16
    · exact List.length_take_le 16 _
  · have silent : x.sendsValve = false := busOff_silent off
    exact (if_neg fun builds => Bool.false_ne_true (silent.symm.trans builds.1)).trans (held.unsent off)

theorem QueuesBounded.perform {f : Part → Part} {p : Part} (h : QueuesBounded p) (may : Bool)
    (works : may = true → LinkBounded (f p)) : QueuesBounded (perform may f p) := by
  unfold Machine.perform
  split
  · next acts => exact (works (Bool.and_eq_true_iff.mp acts).2).concluded p
  · exact h

theorem QueuesBounded.sense {f : Part → Part} {p : Part} (h : QueuesBounded p) (pins : Pins → Pins) (works : LinkKept p (f p)) :
    QueuesBounded (sense f pins p) := by
  unfold Machine.sense
  split
  · exact (works.bounded h.linkBounded).concluded p
  · exact h

/-! ### Requests -/

/-- What a handler does leaves the queue and the waiting frame within their limits. -/
def KeepsBounds (handler : List Byte → Part → Reply) : Prop := ∀ args p, LinkBounded p → LinkBounded (handler args p).part

theorem KeepsLink.keepsBounds {handler : List Byte → Part → Reply} (k : KeepsLink handler) : KeepsBounds handler :=
  fun args p h => (k args p).bounded h

theorem doSetMasks_keepsBounds : KeepsBounds doSetMasks := fun _ _ h => ⟨h.requests, h.unsent⟩

/-- A release frame is built only where the part sends. -/
theorem LinkBounded.releaseFrame {p : Part} (h : LinkBounded p) (n : Profile) : LinkBounded (releaseFrame n p) := by
  unfold Machine.releaseFrame
  split
  · next sends => exact .of_sends h.requests (Bool.and_eq_true_iff.mp sends).1
  · exact h

theorem doSetProfile_keepsBounds : KeepsBounds doSetProfile := fun args p h => by
  unfold doSetProfile
  repeat' split
  any_goals exact h
  next n _ _ _ =>
    have kept : LinkKept (releaseFrame n p) (profileSet n p) := by
      rw [profileSet_eq]
      exact (feedDecide_feedOnly (p.profiled n)).linkKept.trans (guidanceTest_handed _).linkKept
    exact kept.bounded (h.releaseFrame n)

theorem LinkBounded.refreshCompare {p : Part} (h : LinkBounded p) : LinkBounded (refreshCompare p) := by
  unfold Machine.refreshCompare
  split
  · next sends => exact .of_sends h.requests (Bool.and_eq_true_iff.mp sends).1
  · exact h

theorem doWriteSetting_keepsBounds : KeepsBounds doWriteSetting := fun args p h => by
  have written : ∀ n v, LinkBounded (writeSetting n v p) := fun n v => (writeSetting_linkKept n v p).bounded h
  unfold doWriteSetting settingTaken
  repeat' split
  any_goals exact h
  · exact (written _ _).refreshCompare
  · exact written _ _

theorem LinkBounded.handed {p : Part} (h : LinkBounded p) {bs : List Byte} {rest : List (List Byte)}
    (queue : p.link.requests = bs :: rest) : LinkBounded (p.handed rest) := by
  have most := h.requests
  rw [queue] at most
  exact ⟨Nat.le_of_succ_le most, h.unsent⟩

/-- A request leaves the queue, so a row keeps the bounds where its handler does. -/
theorem QueuesBounded.request {handler : List Byte → Part → Reply} {p : Part} (h : QueuesBounded p) (code : Byte)
    (need : List Byte → Nat) (k : KeepsBounds handler) : QueuesBounded (request code need handler p) := by
  refine h.perform _ fun _ => ?_
  have bounded := h.linkBounded
  unfold serve
  split
  · next c tag args rest queue =>
    have handed := bounded.handed queue
    have screened : LinkBounded (screen c need handler args (p.handed rest)).part := by
      unfold screen
      repeat' split
      · exact handed
      · exact handed
      · exact k args _ handed
    exact ⟨screened.requests, screened.unsent⟩
  · exact bounded

theorem LinkBounded.serveBad {p : Part} (h : LinkBounded p) : LinkBounded (serveBad p) := by
  unfold Machine.serveBad
  split
  · next bs rest queue => exact ⟨(h.handed queue).requests, h.unsent⟩
  · exact h

/-- A fifth request is discarded. -/
theorem LinkBounded.requestArrives {p : Part} (h : LinkBounded p) (f : BusFrame) : LinkBounded (requestArrives f p) := by
  unfold Machine.requestArrives
  split
  · exact (FeedOnly.of_raise .overrun p).linkKept.bounded h
  · next room => exact ⟨by rw [List.length_append]; exact Nat.lt_of_not_le room, h.unsent⟩

/-! ### Sending, bus-off -/

theorem LinkBounded.itemSent {p : Part} (h : LinkBounded p) (i : SendItem) (rest : List SendItem) :
    LinkBounded (itemSent i rest p) := by
  unfold Machine.itemSent
  dsimp only
  repeat' split
  · exact resetEffect_linkBounded _ _
  · exact ⟨h.requests, h.unsent⟩
  · exact ⟨h.requests, h.unsent⟩

theorem LinkBounded.valveSent {p : Part} (h : LinkBounded p) (v : OutFrame) : LinkBounded (valveSent v p) :=
  ⟨h.requests, fun _ => rfl⟩

theorem LinkBounded.frameSent {p : Part} (h : LinkBounded p) : LinkBounded (frameSent p) := by
  have drawn : LinkBounded { p with draws := p.draws + 1 } := ⟨h.requests, h.unsent⟩
  unfold Machine.frameSent
  dsimp only
  repeat' split
  · exact h
  · exact h.valveSent _
  · exact h.itemSent _ _
  · exact h.valveSent _
  · exact h.itemSent _ _
  · exact drawn.valveSent _
  · exact drawn.itemSent _ _

/-- The entry into bus-off discards the frame that waits. -/
theorem LinkBounded.transmitFails {p : Part} (h : LinkBounded p) : LinkBounded (transmitFails p) := by
  by_cases few : p.link.errors + 8 ≤ 255
  · rw [transmitFails_counts few]
    exact ⟨h.requests, h.unsent⟩
  · rw [transmitFails_cutsOff (Nat.lt_of_not_le few)]
    exact (feedSetValue_feedOnly .grip p.cutOff).linkKept.bounded ⟨h.requests, fun _ => rfl⟩

theorem LinkBounded.leaveBusOff {p : Part} (h : LinkBounded p) : LinkBounded (leaveBusOff p) :=
  ⟨h.requests, fun off => absurd off Bool.false_ne_true⟩

/-- Power starts the link with an empty queue and no frame waiting. -/
theorem powerUp_queuesBounded (straps : BitVec 2) (p : Part) : QueuesBounded (powerUp straps p) := by
  rw [powerUp_eq]
  refine LinkBounded.concluded ?_ p
  split
  · exact startUp_linkBounded _
  · exact (FeedOnly.of_raise .storeFault _).linkKept.bounded (startUp_linkBounded _)

theorem QueuesBounded.millisecond {p : Part} (h : QueuesBounded p) : QueuesBounded (millisecond p) := by
  unfold Machine.millisecond
  split
  · exact h
  · exact h

/-! ### Every command -/

/-- Every command keeps the limits: most leave queue and valve command frames; the rest take or queue a request, send or build a
frame, enter or leave bus-off, or restart the part. -/
theorem exec_queuesBounded {c : Instr} {s s' : State} (h : QueuesBounded s.part) (run : exec c s = .next s') :
    QueuesBounded s'.part := by
  have on : ∀ f : Part → Part, s.on f = .next s' → QueuesBounded (f s.part) → QueuesBounded s'.part := by
    intro f e k
    obtain rfl := Host.Outcome.next.inj e
    exact k
  have link := h.linkBounded
  have event : ∀ (f : Part → Part) (may : Bool), LinkKept s.part (f s.part) → QueuesBounded (perform may f s.part) :=
    fun f may kept => h.perform may fun _ => kept.bounded link
  have takes : ∀ {handler : List Byte → Part → Reply} (code : Byte) (need : List Byte → Nat), KeepsLink handler →
      QueuesBounded (request code need handler s.part) := fun code need k => h.request code need k.keepsBounds
  cases c with
  | powerOn straps => exact on _ run (powerUp_queuesBounded straps _)
  | lossOfPower => exact on _ run h
  | requestFrame f => exact on _ run (h.perform _ fun _ => link.requestArrives f)
  | badRequest => exact on _ run (h.perform _ fun _ => link.serveBad)
  | status => exact on _ run (takes _ _ fun _ p => .rfl p)
  | readConditions => exact on _ run (takes _ _ doReadConditions_keepsLink)
  | setMasks => exact on _ run (h.request _ _ doSetMasks_keepsBounds)
  | setProfile => exact on _ run (h.request _ _ doSetProfile_keepsBounds)
  | setFeed => exact on _ run (takes _ _ doSetFeed_keepsLink)
  | knifeOverride => exact on _ run (takes _ _ doKnifeOverride_keepsLink)
  | takeover => exact on _ run (takes _ _ doTakeover_keepsLink)
  | cutNow => exact on _ run (takes _ _ doCutNow_keepsLink)
  | openStem => exact on _ run (takes _ _ doOpenStem_keepsLink)
  | attachStem => exact on _ run (takes _ _ doAttachStem_keepsLink)
  | finishStem => exact on _ run (takes _ _ doFinishStem_keepsLink)
  | retireStem => exact on _ run (takes _ _ doRetireStem_keepsLink)
  | readStem => exact on _ run (takes _ _ doReadStem_keepsLink)
  | readEntries => exact on _ run (takes _ _ doReadEntries_keepsLink)
  | appendEntry => exact on _ run (takes _ _ doAppendEntry_keepsLink)
  | insertEntry => exact on _ run (takes _ _ doInsertEntry_keepsLink)
  | changeEntry => exact on _ run (takes _ _ doChangeEntry_keepsLink)
  | cancelEntry => exact on _ run (takes _ _ doCancelEntry_keepsLink)
  | readSpecies => exact on _ run (takes _ _ doReadSpecies_keepsLink)
  | writeSpecies => exact on _ run (takes _ _ doWriteSpecies_keepsLink)
  | clearSpecies => exact on _ run (takes _ _ doClearSpecies_keepsLink)
  | calibrate => exact on _ run (takes _ _ doCalibrate_keepsLink)
  | readSetting => exact on _ run (takes _ _ doReadSetting_keepsLink)
  | writeSetting => exact on _ run (h.request _ _ doWriteSetting_keepsBounds)
  | store => exact on _ run (takes _ _ doStore_keepsLink)
  | storeCompletion held => exact on _ run (event _ _ (storeCompletes_linkKept held _))
  | reset => exact on _ run (takes _ _ doReset_keepsLink)
  | startupDeadline => exact on _ run (event _ _ (deadlinePasses_work _).linkKept)
  | frameTransmitted => exact on _ run (h.perform _ fun _ => link.frameSent)
  | transmitError => exact on _ run (h.perform _ fun _ => link.transmitFails)
  | busOffRecovery => exact on _ run (h.perform _ fun _ => link.leaveBusOff)
  | valveRefreshExpiry =>
    exact on _ run (h.perform _ fun due => .of_sends link.requests (Bool.and_eq_true_iff.mp due).2)
  | stickFrame f => exact on _ run (event _ _ (stickArrives_linkKept f _))
  | takeoverReleaseExpiry => exact on _ run (event _ _ (releaseExpires_linkKept _))
  | advanceExpectationExpiry => exact on _ run (event expectationCloses _ (.of_link rfl))
  | wheelCount forward => exact on _ run (event _ _ (wheelCounts_linkKept forward _))
  | rollerCount forward => exact on _ run (event _ _ (rollerCounts_linkKept forward _))
  | wheelContactSwitch closed => exact on _ run (h.sense _ (contactLevel_linkKept closed _))
  | endSensorChange covered => exact on _ run (h.sense _ (endSensorLevel_linkKept covered _))
  | gripSampleExpiry => exact on _ run (event _ _ (gripSample_linkKept _))
  | armLineReading l x => exact on _ run (h.sense _ (lineReads_linkKept l x _))
  | lineOutOfWindowExpiry l => exact on _ run (event _ _ (lineOutExpires_linkKept l _))
  | lineInWindowExpiry l => exact on _ run (event _ _ (lineInExpires_linkKept l _))
  | dropTimerExpiry => exact on _ run (event _ _ (dropReport_linkKept _))
  | settleTimerExpiry => exact on _ run (event _ _ (settleEnds_linkKept _))
  | stallTimerExpiry => exact on _ run (event _ _ (stallOutcome_feedOnly _).linkKept)
  | barLeavesHome => exact on _ run (h.sense _ (barLeaves_linkKept _))
  | endOfStroke => exact on _ run (h.sense _ (strokeEnds_linkKept _))
  | barHome => exact on _ run (h.sense _ (barHomes_linkKept _))
  | cutTimerExpiry => exact on _ run (event _ _ (cutTimesOut_linkKept _))
  | returnTimerExpiry => exact on _ run (event _ _ (returnTimesOut_linkKept _))

/-- Settles O59: what an event does keeps the queue and the waiting frame within their limits (`exec_queuesBounded`), its end limits
the send list (`LinkBounded.concluded`); a millisecond moves none of them. -/
theorem everyStepKeepsTheQueuesBounded : Obligations.EveryStepKeepsTheQueuesBounded := by
  intro s s' bounded h
  unfold step at h
  split at h
  · unfold idle at h
    split at h
    · exact exec_queuesBounded bounded h
    · obtain rfl := Host.Outcome.next.inj h
      exact bounded.millisecond
  · next c rest _ => exact exec_queuesBounded (s := { s with pending := rest }) bounded h

end Sys2Proof.Machine
end

section
namespace Sys2Proof.Machine

/-! ### Raising a condition (10 R195, R197) -/

theorem raise_unannounced {c : Condition} {p : Part} (h : p.raised c = true ∨ p.link.mask.getLsbD c.bit = true) :
    (raise c p).link.sendList = p.link.sendList := if_pos (Bool.or_eq_true_iff.mpr h)

theorem raise_announced {c : Condition} {p : Part} (clear : p.raised c = false) (unmasked : p.link.mask.getLsbD c.bit = false) :
    (raise c p).link.sendList = p.link.sendList ++ [.notice (.condition c.word (raise c p).link.conditions)] :=
  if_neg (by rw [clear, unmasked]; exact Bool.false_ne_true)

/-- Settles O12: the word of a condition is its bit alone (`raised_raise`), and the notice is the branch that `raise` takes. -/
theorem raisingLatchesAndAnnounces : Obligations.RaisingLatchesAndAnnounces := fun c p =>
  ⟨by rw [raised_raise, decide_eq_true rfl, Bool.or_true], .of_raise (List.mem_singleton_self c) p, rfl,
    raise_announced, raise_unannounced⟩

/-! ### REQUEST_FRAME (10 R190, R191) -/

theorem hearsRequest_iff (p : Part) (f : BusFrame) :
    p.hearsRequest f = true ↔ f.id = requestId p.link.node ∧ f.remote = false ∧ p.link.busOff = false := by
  simp [Part.hearsRequest, and_assoc]

theorem requestArrives_joins {p : Part} (room : p.link.requests.length < 4) (f : BusFrame) :
    requestArrives f p = p.took (p.link.requests ++ [f.data]) := if_neg (Nat.not_le.mpr room)

theorem requestArrives_overruns {p : Part} (full : 4 ≤ p.link.requests.length) (f : BusFrame) :
    requestArrives f p = raise .overrun p := if_pos full

/-- Settles O7: the end of an event reads no request, so that only the queue is longer; a discarded request leaves a settled part
with OVERRUN raised last. -/
theorem requestFrameJoinsQueue : Obligations.RequestFrameJoinsQueue := by
  intro f s hs on
  have quiet := hs.quiet on
  have row : ∀ q, perform (s.part.hearsRequest f) (requestArrives f) s.part = q → Runs (.requestFrame f) s q :=
    fun q => runs_on (f := fun p => perform (p.hearsRequest f) (requestArrives f) p) rfl
  refine ⟨fun id data onBus => ?_, fun other => row _ (perform_off ?_)⟩
  · have heard := (hearsRequest_iff s.part f).mpr ⟨id, data, onBus⟩
    refine ⟨fun room => row _ ?_, fun full => row _ ?_⟩
    · rw [perform_on on heard, requestArrives_joins room]
      exact (quiet.took _).conclude_self s.part rfl rfl
    · rw [perform_on on heard, requestArrives_overruns full]
      exact quiet.conclude_raise s.part rfl rfl .overrun s.part.link.sendList
  · rw [Bool.eq_false_iff, Ne, hearsRequest_iff]
    rintro ⟨id, data, onBus⟩
    rcases other with other | remote | off
    · exact other id
    · exact Bool.false_ne_true (data.symm.trans remote)
    · exact Bool.false_ne_true (onBus.symm.trans off)

/-! ### READ CONDITIONS, SET MASKS (10 R196, R197) -/

/-- The end of an event reads neither conditions nor mask. -/
theorem Quiet.with_conditions {p : Part} (h : Quiet p) (conditions mask : Word16) :
    Quiet { p with link := { p.link with conditions, mask } } :=
  ⟨h.pending, h.holds, h.drop, h.slip, h.ready, h.knife, h.image, h.refresh, h.list⟩

/-- A granted request that writes no more than conditions and mask is answered, and that is all. -/
theorem granted_masks {s : State} {code tag : Byte} {args : List Byte} {rest : List (List Byte)} {results : List Byte}
    {conditions mask : Word16} (hs : Settled s.part) (h : s.part.granted code tag args rest) (known : code ∈ requestCodes)
    (handled : handlerOf code args (s.part.handed rest) =
      accept results ({ s.part with link := { s.part.link with conditions, mask } }.handed rest)) :
    Runs (requestRow code) s
      ({ s.part with link := { s.part.link with conditions, mask } }.withAnswer (okAnswer code tag results) rest) := by
  have ⟨⟨⟨on, _, short, _⟩, _⟩, _⟩ := h
  refine runs_request known ?_
  rw [request_granted h known, handled]
  have quiet := ((hs.quiet on).with_conditions conditions mask).took rest
  have ends := quiet.conclude_list s.part rfl rfl (s.part.link.sendList ++ [.answer (okAnswer code tag results)])
  rw [List.take_of_length_le (List.length_append.trans_le short)] at ends
  exact ends

/-- Settles O11: each of the two handlers writes its word and accepts with the word as R196 and R197 have it. -/
theorem conditionRequestsReadClearAndMask : Obligations.ConditionRequestsReadClearAndMask := fun _ _ _ _ hs =>
  ⟨fun h => granted_masks hs h (by decide) rfl, fun h => granted_masks hs h (by decide) rfl⟩

end Sys2Proof.Machine
end

section
namespace Sys2Proof.Machine

/-! ### FRAME_TRANSMITTED (10 R194, R201) -/

theorem frameSent_alone {p : Part} {v : OutFrame} (valve : p.link.valve = some v) (list : p.link.sendList = []) :
    frameSent p = valveSent v p := by
  unfold frameSent
  rw [valve, list]

theorem frameSent_valve {p : Part} {v : OutFrame} {i : SendItem} {l : List SendItem} (valve : p.link.valve = some v)
    (list : p.link.sendList = i :: l) (lower : v.id < (i.frame p.link.node).id) : frameSent p = valveSent v p := by
  unfold frameSent
  rw [valve, list]
  exact if_pos lower

theorem frameSent_item {p : Part} {v : OutFrame} {i : SendItem} {l : List SendItem} (valve : p.link.valve = some v)
    (list : p.link.sendList = i :: l) (lower : (i.frame p.link.node).id < v.id) : frameSent p = itemSent i l p := by
  unfold frameSent
  rw [valve, list]
  exact (if_neg (BitVec.not_lt.mpr (BitVec.le_of_lt lower))).trans (if_pos lower)

/-- Of equal identifiers a free value, drawn for it, says which goes (log 14). -/
theorem frameSent_equal {p : Part} {v : OutFrame} {i : SendItem} {l : List SendItem} (valve : p.link.valve = some v)
    (list : p.link.sendList = i :: l) (equal : v.id = (i.frame p.link.node).id) :
    frameSent p = if Config.equalIdValveFirst p.draws then valveSent v { p with draws := p.draws + 1 }
      else itemSent i l { p with draws := p.draws + 1 } := by
  unfold frameSent
  rw [valve, list]
  dsimp only
  rw [equal, if_neg (BitVec.lt_irrefl _), if_neg (BitVec.lt_irrefl _)]

/-- With no reset arranged the head of the list only leaves. -/
theorem itemSent_unarranged {p : Part} (pending : p.boot.resetPending = none) (i : SendItem) (l : List SendItem) :
    itemSent i l p = p.itemGone i l := by
  unfold itemSent
  rw [pending]
  rfl

/-- The end of an event reads no frame that waits. -/
theorem Quiet.valveSent {p : Part} (h : Quiet p) (v : OutFrame) : Quiet (valveSent v p) :=
  ⟨h.pending, h.holds, h.drop, h.slip, h.ready, h.knife, h.image, h.refresh, h.list⟩

/-- The row's event is over with the frame sent, where that leaves a settled part of the same image that sends as before. -/
theorem frameTransmitted_ends {s : State} {q : Part} (on : s.part.powered = true) (waits : s.part.sending = true)
    (sent : frameSent s.part = q) (quiet : Quiet q) (image : s.part.link.image = q.link.image)
    (sends : s.part.sendsValve = q.sendsValve) : Runs .frameTransmitted s q := by
  refine runs_on (f := fun p => perform p.sending frameSent p) rfl ?_
  rw [perform_on on waits, sent]
  exact quiet.conclude_self s.part image sends

theorem sending_of_valve {p : Part} {v : OutFrame} (valve : p.link.valve = some v) : p.sending = true := by
  rw [Part.sending, valve]
  rfl

/-- Settles O34: which frame goes is read off `frameSent`, and neither leaves more to do at the end of the event (`Quiet.valveSent`,
`Quiet.itemGone`). -/
theorem frameTransmittedSendsTheLowerIdentifier : Obligations.FrameTransmittedSendsTheLowerIdentifier := by
  intro s hs on unarranged
  have quiet := hs.quiet on
  have drawn : Quiet { s.part with draws := s.part.draws + 1 } := quiet.with_store _ rfl
  refine ⟨fun valve list => ?_, fun v valve list => ?_, fun i l valve list => ?_, fun v i l valve list => ?_⟩
  · refine runs_on (f := fun p => perform p.sending frameSent p) rfl (perform_off ?_)
    rw [Part.sending, valve, list]
    rfl
  · exact frameTransmitted_ends on (sending_of_valve valve) (frameSent_alone valve list) (quiet.valveSent v) rfl rfl
  · refine frameTransmitted_runs on valve list ?_
    rw [itemSent_unarranged unarranged]
    exact (quiet.itemGone list).conclude_self s.part rfl rfl
  · have waits := sending_of_valve valve
    refine ⟨fun lower => ?_, fun lower => ?_, fun equal => ?_⟩
    · exact frameTransmitted_ends on waits (frameSent_valve valve list lower) (quiet.valveSent v) rfl rfl
    · exact frameTransmitted_ends on waits ((frameSent_item valve list lower).trans (itemSent_unarranged unarranged i l))
        (quiet.itemGone list) rfl rfl
    · have sent := frameSent_equal valve list equal
      split at sent
      · exact .inl (frameTransmitted_ends on waits sent (drawn.valveSent v) rfl rfl)
      · exact .inr (frameTransmitted_ends on waits (sent.trans
          (itemSent_unarranged (p := { s.part with draws := s.part.draws + 1 }) unarranged i l)) (drawn.itemGone list) rfl rfl)

/-! ### BUS_OFF_RECOVERY (10 R201) -/

/-- A settled part that begins to send builds its first frame at the end of the event, and leaves all else. -/
theorem Quiet.conclude_begins {q : Part} (h : Quiet q) (b : Part) (silent : b.sendsValve = false) (sends : q.sendsValve = true) :
    conclude b q = buildFrame q := by
  rw [conclude_eq, resetInBusOff_idle h.pending, holdTest_idle h.holds, concludeRest_eq, ← h.drop, ← h.slip, h.ready,
    ← h.knife, ← h.image, ← h.list, silent, sends]
  simp [buildFrame]

/-- Bus-off has kept the list empty and stopped the refresh timer, so that a settled part leaves it settled. -/
theorem Quiet.leaveBusOff {p : Part} (h : Quiet p) (off : p.link.busOff = true) : Quiet (leaveBusOff p) := by
  have list : p.link.sendList = [] := h.list.trans (if_pos off)
  exact ⟨.inr rfl, h.holds, h.drop, h.slip, h.ready, h.knife, h.image, fun _ => h.refresh (busOff_silent off),
    show p.link.sendList = p.link.sendList.take 16 by rw [list]; rfl⟩

theorem leaveBusOff_sends {p : Part} (on : p.powered = true) : (leaveBusOff p).sendsValve = p.monitor.profile.works := by
  show (p.powered && p.monitor.profile.works && true) = _
  rw [on, Bool.true_and, Bool.and_true]

/-- Settles O36: the recovery leaves a settled part settled, so that only the first frame is left to the end of the event, where the
profile sends. -/
theorem busOffRecoverySendsTheImage : Obligations.BusOffRecoverySendsTheImage := by
  intro s hs on
  have row : ∀ q, perform s.part.link.busOff leaveBusOff s.part = q → Runs .busOffRecovery s q :=
    fun q => runs_on (f := fun p => perform p.link.busOff leaveBusOff p) rfl
  refine ⟨fun onBus => row _ (perform_off onBus), fun off => row _ ?_⟩
  have silent := busOff_silent off
  have left := (hs.quiet on).leaveBusOff off
  have sends := leaveBusOff_sends on
  rw [perform_on on off]
  rcases works : s.part.monitor.profile.works
  · rw [works] at sends
    rw [left.conclude_self s.part rfl (silent.trans sends.symm), ← (hs.quiet on).refresh silent]
    rfl
  · rw [left.conclude_begins s.part silent (sends.trans works)]
    rfl

end Sys2Proof.Machine
end

section
namespace Sys2Proof.Machine

/-! ### What a step and a command are (95, log 25) -/

/-- Settles O1: the queue holds a command, so the step does not idle but moves it from the front to `exec`. -/
theorem stepTakesFrontCommand : Obligations.StepTakesFrontCommand := fun _ _ _ => rfl

/-- Settles O3: every row of the table changes the part alone, by power's own operation, by `sense` for a level at a pin, by `request`
for a request, by `perform` for any other event; what the operation makes of the part is the next one. -/
theorem everyCommandAnswersNext : Obligations.EveryCommandAnswersNext := by
  intro c s
  cases c with
  | powerOn straps => exact ⟨powerUp straps s.part, rfl⟩
  | lossOfPower => exact ⟨powerDown s.part, rfl⟩
  | wheelContactSwitch _ | endSensorChange _ | armLineReading _ _ | barLeavesHome | endOfStroke | barHome =>
    exact ⟨sense _ _ s.part, rfl⟩
  | status | readConditions | setMasks | setProfile | setFeed | knifeOverride | takeover | cutNow | openStem | attachStem
  | finishStem | retireStem | readStem | readEntries | appendEntry | insertEntry | changeEntry | cancelEntry | readSpecies
  | writeSpecies | clearSpecies | calibrate | readSetting | writeSetting | store | reset =>
    exact ⟨request _ _ _ s.part, rfl⟩
  | requestFrame _ | badRequest | storeCompletion _ | startupDeadline | frameTransmitted | transmitError | busOffRecovery
  | valveRefreshExpiry | stickFrame _ | takeoverReleaseExpiry | advanceExpectationExpiry | wheelCount _ | rollerCount _
  | gripSampleExpiry | lineOutOfWindowExpiry _ | lineInWindowExpiry _ | dropTimerExpiry | settleTimerExpiry
  | stallTimerExpiry | cutTimerExpiry | returnTimerExpiry =>
    exact ⟨perform _ _ s.part, rfl⟩

end Sys2Proof.Machine
end
